-- ==== Sys2Proof/Word.lean ====
section
/-! DEFINITION. The word types of the block (10_state.md: registers are 32 bits wide, the bit-period denominator is 64 bits wide). -/

namespace Sys2Proof

/-- One byte as the host writes and reads it (20_memory.md R43, R44). -/
abbrev Byte := BitVec 8

/-- One 32-bit register or record word (10_state.md R18, 30_encoding.md R68). -/
abbrev Word := BitVec 32

/-- The 64-bit denominator held in BP_DEN_HI and BP_DEN_LO (10_state.md R25). -/
abbrev DWord := BitVec 64

end Sys2Proof
end

