-- ==== Sys2Proof/Syntax.lean ====
section
/-! DEFINITION. The operations of the block: one constructor per row of opcode_table.json (30_encoding.md R56 to R65). -/

namespace Sys2Proof

/-- `FILT` of EDGES (30_encoding.md R58); code 3 is reserved. -/
inductive Filter where
  | any
  | rising
  | falling
  | reserved
deriving DecidableEq, Repr

/-- `PAR` of UART (30_encoding.md R65); codes 5 to 7 are reserved. -/
inductive Parity where
  | none
  | odd
  | even
  | mark
  | space
  | reserved5
  | reserved6
  | reserved7
deriving DecidableEq, Repr

/-- `ORDER` of I2S (30_encoding.md R64). -/
inductive BitOrder where
  | msb
  | lsb
deriving DecidableEq, Repr

/-- A sampling edge: `CPHA` of SPI4 and SYNC, `BEDGE` of I2S (0 is rising, 1 is falling). -/
inductive ClockEdge where
  | rising
  | falling
deriving DecidableEq, Repr

/-- The eight operations, with the parameter fields of the command word. -/
inductive Instr where
  /-- 0x0 EDGES FILT, SLOT (R58). -/
  | edges (filt : Filter) (slot : BitVec 2)
  /-- 0x1 ONEWIRE (R59). -/
  | onewire
  /-- 0x2 SPI3 RWPOS (R60). -/
  | spi3 (rwpos : BitVec 3)
  /-- 0x3 SPI4 CPOL, CPHA (R61). -/
  | spi4 (cpol : Bool) (cpha : ClockEdge)
  /-- 0x4 I2C (R62). -/
  | i2c
  /-- 0x5 SYNC CPHA (R63). -/
  | sync (cpha : ClockEdge)
  /-- 0x6 I2S BPW, DELAY, ORDER, BEDGE (R64). -/
  | i2s (bpw : BitVec 6) (delay : BitVec 4) (order : BitOrder) (bedge : ClockEdge)
  /-- 0x7 UART DBITS, PAR, STOP2, AUTO, ANALOG (R65). -/
  | uart (dbits : BitVec 4) (par : Parity) (stop2 auto analog : Bool)
deriving DecidableEq, Repr

end Sys2Proof
end

