-- ==== Sys2Proof/WellFormed.lean ====
section
/-! DEFINITION. Which field values are legal (30_encoding.md R66): the reserved values of R58, R64 and R65 are refused here. -/

namespace Sys2Proof

/-- `PAR` holds one of the five named modes (R65). -/
def Parity.legal : Parity → Bool
  | .none | .odd | .even | .mark | .space => true
  | .reserved5 | .reserved6 | .reserved7 => false

/-- No field holds a reserved value: FILT ≠ 3, 1 ≤ BPW ≤ 32, 5 ≤ DBITS ≤ 9, PAR ≤ 4 (R66). -/
def Instr.wf : Instr → Bool
  | .edges filt _ => decide (filt ≠ .reserved)
  | .onewire => true
  | .spi3 _ => true
  | .spi4 _ _ => true
  | .i2c => true
  | .sync _ => true
  | .i2s bpw _ _ _ => decide (1 ≤ bpw.toNat ∧ bpw.toNat ≤ 32)
  | .uart dbits par _ _ _ => decide (5 ≤ dbits.toNat ∧ dbits.toNat ≤ 9) && par.legal

end Sys2Proof
end

