-- ==== Sys2Proof/Decode.lean ====
section
/-! DEFINITION. The command word (30_encoding.md R56 to R66): decoder, total and rejecting by name, and encoder. -/

namespace Sys2Proof

/-! ## Field codes -/

/-- FILT from its code (R58). -/
def Filter.ofCode (c : BitVec 2) : Filter :=
  match c.toNat with
  | 0 => .any
  | 1 => .rising
  | 2 => .falling
  | _ => .reserved

/-- FILT's code (R58). -/
def Filter.code : Filter → BitVec 2
  | .any => 0
  | .rising => 1
  | .falling => 2
  | .reserved => 3

/-- PAR from its code (R65). -/
def Parity.ofCode (c : BitVec 3) : Parity :=
  match c.toNat with
  | 0 => .none
  | 1 => .odd
  | 2 => .even
  | 3 => .mark
  | 4 => .space
  | 5 => .reserved5
  | 6 => .reserved6
  | _ => .reserved7

/-- PAR's code (R65). -/
def Parity.code : Parity → BitVec 3
  | .none => 0
  | .odd => 1
  | .even => 2
  | .mark => 3
  | .space => 4
  | .reserved5 => 5
  | .reserved6 => 6
  | .reserved7 => 7

/-- ORDER from its bit: 0 is MSB first, 1 is LSB first (R64). -/
def BitOrder.ofBit (b : Bool) : BitOrder := if b then .lsb else .msb

/-- ORDER's bit (R64). -/
def BitOrder.bit : BitOrder → Bool
  | .msb => false
  | .lsb => true

/-- CPHA or BEDGE from its bit: 0 is rising, 1 is falling (R61, R63, R64). -/
def ClockEdge.ofBit (b : Bool) : ClockEdge := if b then .falling else .rising

/-- CPHA's or BEDGE's bit (R61, R63, R64). -/
def ClockEdge.bit : ClockEdge → Bool
  | .rising => false
  | .falling => true

/-! ## Decoder -/

/-- Why a word is no instruction (R66): OP is 0x8 to 0xF, or a bit marked "must be 0" is 1. -/
inductive DecodeError where
  | reservedOp (op : BitVec 4)
  | mustBeZero (op : BitVec 4)
deriving DecidableEq, Repr

/-- `i` when the bits that must be 0 are 0. -/
def whenZero {n : Nat} (op : BitVec 4) (mbz : BitVec n) (i : Instr) : Except DecodeError Instr :=
  if mbz = 0 then .ok i else .error (.mustBeZero op)

/-- OP is CMD[3:0], then the operation's fields from CMD[31:4] (R56 to R65). A reserved field value
decodes to a constructor that `Instr.wf` refuses (log entry 17). -/
def decode (w : Word) : Except DecodeError Instr :=
  let op := w.extractLsb' 0 4
  match op.toNat with
  | 0 => whenZero op (w.extractLsb' 8 24)
      (.edges (Filter.ofCode (w.extractLsb' 4 2)) (w.extractLsb' 6 2))
  | 1 => whenZero op (w.extractLsb' 4 28) .onewire
  | 2 => whenZero op (w.extractLsb' 7 25) (.spi3 (w.extractLsb' 4 3))
  | 3 => whenZero op (w.extractLsb' 6 26) (.spi4 (w.getLsbD 4) (ClockEdge.ofBit (w.getLsbD 5)))
  | 4 => whenZero op (w.extractLsb' 4 28) .i2c
  | 5 => whenZero op (w.extractLsb' 6 26 ++ w.extractLsb' 4 1) (.sync (ClockEdge.ofBit (w.getLsbD 5)))
  | 6 => whenZero op (w.extractLsb' 16 16)
      (.i2s (w.extractLsb' 4 6) (w.extractLsb' 10 4) (BitOrder.ofBit (w.getLsbD 14))
        (ClockEdge.ofBit (w.getLsbD 15)))
  | 7 => whenZero op (w.extractLsb' 14 18)
      (.uart (w.extractLsb' 4 4) (Parity.ofCode (w.extractLsb' 8 3)) (w.getLsbD 11) (w.getLsbD 12)
        (w.getLsbD 13))
  | _ => .error (.reservedOp op)

/-- A 32-bit word from four bytes, the first the least significant (20_memory.md R44). -/
def wordOfBytes (b0 b1 b2 b3 : Byte) : Word := b3 ++ b2 ++ b1 ++ b0

/-- Why a list of bytes holds no instruction. -/
inductive BytesError where
  | tooShort
  | word (e : DecodeError)
deriving DecidableEq, Repr

/-- The instruction in the first four bytes (R56: one length, 32 bits), with the rest of the list. -/
def decodeBytes : List Byte → Except BytesError (Instr × List Byte)
  | b0 :: b1 :: b2 :: b3 :: rest =>
    match decode (wordOfBytes b0 b1 b2 b3) with
    | .ok i => .ok (i, rest)
    | .error e => .error (.word e)
  | _ => .error .tooShort

/-! ## Encoder -/

/-- The command word of an instruction, each field at its bits, every other bit 0 (R57 to R65, R71). -/
def encode : Instr → Word
  | .edges filt slot => (0#24 ++ slot ++ filt.code ++ 0#4 : Word)
  | .onewire => (0#28 ++ 1#4 : Word)
  | .spi3 rwpos => (0#25 ++ rwpos ++ 2#4 : Word)
  | .spi4 cpol cpha => (0#26 ++ BitVec.ofBool cpha.bit ++ BitVec.ofBool cpol ++ 3#4 : Word)
  | .i2c => (0#28 ++ 4#4 : Word)
  | .sync cpha => (0#26 ++ BitVec.ofBool cpha.bit ++ 0#1 ++ 5#4 : Word)
  | .i2s bpw delay order bedge =>
    (0#16 ++ BitVec.ofBool bedge.bit ++ BitVec.ofBool order.bit ++ delay ++ bpw ++ 6#4 : Word)
  | .uart dbits par stop2 auto analog =>
    (0#18 ++ BitVec.ofBool analog ++ BitVec.ofBool auto ++ BitVec.ofBool stop2 ++ par.code ++ dbits ++ 7#4 : Word)

/-- The four bytes of a word as the host stores them, least significant first (20_memory.md R44). -/
def bytesOfWord (w : Word) : List Byte :=
  [w.extractLsb' 0 8, w.extractLsb' 8 8, w.extractLsb' 16 8, w.extractLsb' 24 8]

/-! ## The host's question about a table row -/

/-- The instruction the decoder reads from bits `w`, numbered as opcode_table.json numbers them; every
bit at or above `nbits` is 0. -/
def tableWord (nbits w : Nat) : Word := BitVec.ofNat 32 (w % 2 ^ nbits)

/-- See `tableWord`: the word is laid out in bytes and given to the decoder. -/
def decodeTableWord (nbits w : Nat) : Option Instr :=
  match decodeBytes (bytesOfWord (tableWord nbits w)) with
  | .ok (i, _) => some i
  | .error _ => none

end Sys2Proof
end

