-- ==== Sys2Proof/Machine/Annotation.lean ====
section
/-! DEFINITION. The annotation record: labels, colours, payloads and their 16-byte layout (30_encoding.md R68 to R70). -/

namespace Sys2Proof.Machine

/-- The label strings of 30_encoding.md R69, in code order 0x01 to 0x17. -/
inductive Label where
  | sMark
  | pMark
  | reset
  | rAck
  | resetNotLongEnough
  | untimelyResponse
  | wrongAckWidth
  | timeOut
  | bitOne
  | bitZero
  | address
  | read
  | write
  | command
  | mOut
  | sOut
  | wFlag
  | rFlag
  | data
  | left
  | uartStart
  | uartStop
  | uartParity
deriving DecidableEq, Repr

/-- The semantic categories of 30_encoding.md R70, in code order 0 to 7. -/
inductive Colour where
  | event
  | address
  | data
  | control
  | error
  | warning
  | read
  | write
deriving DecidableEq, Repr

/-- `payload: None | Int(value, width)`; Text is never produced (R68). -/
inductive Payload where
  | none
  | int (value : Word) (width : Nat)
deriving DecidableEq, Repr

/-- One annotation: label, colour, half-open span, payload. -/
structure Annotation where
  label : Label
  colour : Colour
  start : Nat
  stop : Nat
  payload : Payload
deriving DecidableEq, Repr

/-- Label codes (R69). -/
def Label.code : Label → Byte
  | .sMark => 0x01
  | .pMark => 0x02
  | .reset => 0x03
  | .rAck => 0x04
  | .resetNotLongEnough => 0x05
  | .untimelyResponse => 0x06
  | .wrongAckWidth => 0x07
  | .timeOut => 0x08
  | .bitOne => 0x09
  | .bitZero => 0x0A
  | .address => 0x0B
  | .read => 0x0C
  | .write => 0x0D
  | .command => 0x0E
  | .mOut => 0x0F
  | .sOut => 0x10
  | .wFlag => 0x11
  | .rFlag => 0x12
  | .data => 0x13
  | .left => 0x14
  | .uartStart => 0x15
  | .uartStop => 0x16
  | .uartParity => 0x17

/-- The label as text (R69). -/
def Label.text : Label → String
  | .sMark => "S"
  | .pMark => "P"
  | .reset => "Reset"
  | .rAck => "R_ACK"
  | .resetNotLongEnough => "ResetNotLongEnough"
  | .untimelyResponse => "UntimelyResponse"
  | .wrongAckWidth => "WrongAckWidth"
  | .timeOut => "TimeOut"
  | .bitOne => "1"
  | .bitZero => "0"
  | .address => "Address"
  | .read => "Read"
  | .write => "Write"
  | .command => "Command"
  | .mOut => "MOut"
  | .sOut => "SOut"
  | .wFlag => "W"
  | .rFlag => "R"
  | .data => "D"
  | .left => "L"
  | .uartStart => "START"
  | .uartStop => "STOP"
  | .uartParity => "PARITY"

/-- Colour codes (R70). -/
def Colour.code : Colour → BitVec 4
  | .event => 0
  | .address => 1
  | .data => 2
  | .control => 3
  | .error => 4
  | .warning => 5
  | .read => 6
  | .write => 7

/-- KIND (R68). -/
def Payload.kind : Payload → BitVec 4
  | .none => 0
  | .int _ _ => 1

/-- WIDTH (R68). -/
def Payload.width : Payload → BitVec 6
  | .none => 0
  | .int _ w => BitVec.ofNat 6 w

/-- VALUE (R68). -/
def Payload.value : Payload → Word
  | .none => 0
  | .int v _ => v

/-- Word 2 of a record: WIDTH at 21:16, LABEL at 15:8, KIND at 7:4, COLOUR at 3:0 (R68). -/
def Annotation.tagWord (a : Annotation) : Word :=
  (0#10 ++ a.payload.width ++ a.label.code ++ a.payload.kind ++ a.colour.code : Word)

end Sys2Proof.Machine
end

