-- ==== Sys2Proof/Config.lean ====
section
/-! DEFINITION. What an implementation fixes (00_scope.md R8) and the free values (93_implementation_defined.md "any value"). -/

namespace Sys2Proof

/-- Rounding of exact halves, parameter `UART_TIE` (00_scope.md R11, 92 D37). -/
inductive Tie where
  | halfEven
  | halfUp
deriving DecidableEq, Repr

/-- `ANALOG_FORMAT`: the width in bits and the signedness of an ACH0 element (93 I17). -/
structure AnalogFormat where
  width : Nat
  signed : Bool
deriving DecidableEq, Repr

/-- The bytes that hold one element (log entry 7). -/
def AnalogFormat.bytes (f : AnalogFormat) : Nat := (f.width + 7) / 8

/-- The value of the element whose bits are the low `width` bits of `raw` (46_uart.md R114, 93 I17). -/
def AnalogFormat.value (f : AnalogFormat) (raw : Nat) : Rat :=
  if f.signed then ((BitVec.ofNat f.width raw).toInt : Rat) else ((BitVec.ofNat f.width raw).toNat : Rat)

/-- The implementation parameters the model takes as an argument (00_scope.md R8). They are a field of
the state that nothing writes, so that a statement about every state holds for every choice of them
(log entry 1). -/
structure Params where
  /-- `OUT_CAP`, capacity of OUT in records (OPEN, 92 D11). -/
  outCap : Word
  /-- `BITS_CAP`, capacity of the UART bitstream in bits (OPEN, 92 D11). -/
  bitsCap : Word
  /-- `PEX_BASE`, the address of the REG block on the host bus (OPEN, 92 D2). -/
  pexBase : Nat
  /-- The host address of CH0 (20_memory.md R50; OPEN, 92 D2). -/
  ch0Base : Nat
  /-- The host address of CH1. -/
  ch1Base : Nat
  /-- The host address of CH2. -/
  ch2Base : Nat
  /-- The host address of CH3. -/
  ch3Base : Nat
  /-- The host address of ACH0. -/
  ach0Base : Nat
  /-- The host address of OUT. -/
  outBase : Nat
  /-- `ANALOG_FORMAT` (OPEN, 92 D43). -/
  analogFormat : AnalogFormat
  /-- `UART_TIE` (92 D37). -/
  uartTie : Tie
  /-- `UART_SEARCH_DIV` (92 D38). -/
  uartSearchDiv : Nat
  /-- `OW_T_RSTL_MIN` in µs. -/
  owRstlMin : Nat
  /-- `OW_T_PDH_MIN` in µs. -/
  owPdhMin : Nat
  /-- `OW_T_PDH_MAX` in µs. -/
  owPdhMax : Nat
  /-- `OW_T_PDL_MIN` in µs. -/
  owPdlMin : Nat
  /-- `OW_T_PDL_MAX` in µs. -/
  owPdlMax : Nat
  /-- `OW_T_ONE` in µs. -/
  owOne : Nat
  /-- `OW_T_SLOT` in µs. -/
  owSlot : Nat
  /-- `OW_WD_SLOTS`, in timeslots. -/
  owWdSlots : Nat
deriving DecidableEq, Repr

/-- The values 00_scope.md R8 gives; of the OPEN ones, the two capacities at the largest value their width
holds, ANALOG_FORMAT at 32 bits signed, PEX_BASE at 0 and the memories above it, one after another without
overlap at their largest sizes (DESIGN CHOICE, log entry 1). -/
def Params.default : Params where
  outCap := 0xFFFFFFFF#32
  bitsCap := 0xFFFFFFFF#32
  pexBase := 0
  ch0Base := 0x20000000
  ch1Base := 0x40000000
  ch2Base := 0x60000000
  ch3Base := 0x80000000
  ach0Base := 0x400000000
  outBase := 0x1000000000
  analogFormat := { width := 32, signed := true }
  uartTie := .halfEven
  uartSearchDiv := 4
  owRstlMin := 480
  owPdhMin := 15
  owPdhMax := 60
  owPdlMin := 60
  owPdlMax := 240
  owOne := 15
  owSlot := 60
  owWdSlots := 100

/-- Free 32-bit values: nothing constrains them (93 I3, 10_state.md R24; log entry 5). -/
opaque Config.freeWord (n : Nat) : Word

/-- Free byte contents of OUT, one function of the address per draw (93 I3, 70 R155; log entry 5). -/
opaque Config.freeByte (n addr : Nat) : Byte

end Sys2Proof
end

