-- ==== Sys2Proof/Machine/State.lean ====
section
/-! DEFINITION. The state of one decoder instance: registers (10_state.md), memories (20_memory.md), the working registers of the
running operation, and the host events still to come (70_reset_and_hazards.md R153, R155). -/

namespace Sys2Proof.Machine

/-- A byte memory: (address, byte) pairs, addresses strictly rising; an unlisted address has no value
(70 R151; log entry 6). -/
abbrev Mem := List Host.Cell

/-- STATUS (10_state.md R23): BUSY, DONE and the three bits of RESULT; bits 31:5 read as 0. -/
structure Status where
  busy : Bool
  done : Bool
  result : BitVec 3
deriving DecidableEq, Repr

/-- 1-Wire protocol states (10_state.md R36), in code order 0 to 8. -/
inductive OwState where
  | idle
  | resetMasterPulse
  | resetSlaveWait
  | resetSlavePulse
  | active
  | activeFallen
  | one
  | masterWritingZero
  | masterReadingZero
deriving DecidableEq, Repr

/-- SPI3, SPI4 and I2C protocol states (10_state.md R37): no transaction open, or between S and P. -/
inductive BusState where
  | idle
  | active
deriving DecidableEq, Repr

/-- A maximal constant-level run of the UART input (10_state.md R32, 46_uart.md R115). -/
structure Run where
  level : Bool
  start : Nat
  len : Nat
deriving DecidableEq, Repr

/-- Where in its rule the running operation stands. -/
inductive Phase where
  /-- no operation runs -/
  | idle
  /-- the command is written, its first micro-step is to come (60 R136) -/
  | start
  /-- per-sample scan (EDGES, ONEWIRE, SPI3, SPI4, I2C, SYNC), or UART phase 1 -/
  | scan
  /-- start-marker widening (47_postprocess.md) -/
  | widen
  /-- I2S: extraction of the bit-clock edges, after that of the frame-clock edges in `scan` (45_i2s.md R110) -/
  | bitEdges
  /-- I2S, one step per frame half (45_i2s.md R110) -/
  | words
  /-- UART: bit period (46_uart.md R116, R117) and the length of the bitstream (R118, 60 R140) -/
  | period
  /-- UART: bitstream, one step per bit (R118, R119) -/
  | resample
  /-- UART: frame search (R121) -/
  | search
  /-- UART: frame walk (R123) -/
  | walk
deriving DecidableEq, Repr

/-- The operands latched when an operation starts (60 R136); the command fields stay in CMD. -/
structure Latched where
  n : Word
  spNum : Word
  spDen : Word
  baud : Word
deriving DecidableEq, Repr

/-- The working registers (10_state.md R26 to R34), all private to the running operation. Indices are
below N < 2^32 and no register wraps (R17, R35), so positions and counts are naturals (log entry 19). -/
structure Work where
  /-- `i`, sample index (R17, R26) -/
  i : Nat
  /-- `s`, state-entry index (R26) -/
  entry : Nat
  /-- `st` of ONEWIRE (R27, R36) -/
  ow : OwState
  /-- `st` of SPI3, SPI4, I2C (R28, R29, R37) -/
  bus : BusState
  /-- `acc` of SPI3, I2C, SYNC (R28 to R30) -/
  acc : Byte
  /-- `mo` of SPI4 (R28) -/
  mo : Byte
  /-- `mi` of SPI4 (R28) -/
  mi : Byte
  /-- `cnt` (R28, R30) -/
  cnt : Nat
  /-- `left` of I2C (R29) -/
  left : Nat
  /-- `first` (R28, R29) -/
  first : Bool
  /-- `rw` of SPI3 (R28) -/
  rw : Bool
  /-- `bs` (R28, R30) -/
  bs : Nat
  /-- `last` (R28, R29) -/
  last : Nat
  /-- `gs` of I2C (R29) -/
  gs : Nat
  /-- `j`, record pointer of the post-pass (R34) -/
  j : Nat
  /-- `FE` of I2S (R31) -/
  fe : List Nat
  /-- `BE` of I2S (R31) -/
  be : List Nat
  /-- `k` of I2S (R31) -/
  k : Nat
  /-- `acc` of I2S, 32 bits (R31; log entry 25) -/
  wordAcc : Word
  /-- θ of the analog front end (46_uart.md R114); none when fewer than two levels occur -/
  theta : Option Rat
  /-- `RUNS` (R32) -/
  runs : List Run
  /-- `HIST`, run length to count, only nonzero counts listed (R32) -/
  hist : List (Nat × Nat)
  /-- numerator of `P` (R32); 0 until P is set -/
  pNum : Nat
  /-- denominator of `P` (R32) -/
  pDen : Nat
  /-- `BITS` (R32) -/
  bits : List Bool
  /-- `BIDX` (R32) -/
  bidx : List Nat
  /-- `F` (R32) -/
  frame : Nat
  /-- `best` (R32) -/
  best : Nat
  /-- `bestcnt` (R32) -/
  bestcnt : Nat
  /-- `o`, candidate offset (R17, R32) -/
  o : Nat
  /-- `p`, frame pointer (R17, R32) -/
  p : Nat
deriving DecidableEq, Repr

/-- The per-call initial values (10_state.md R26 to R34). -/
def Work.initial : Work where
  i := 1
  entry := 0
  ow := .idle
  bus := .idle
  acc := 0
  mo := 0
  mi := 0
  cnt := 0
  left := 8
  first := false
  rw := false
  bs := 0
  last := 0
  gs := 0
  j := 0
  fe := []
  be := []
  k := 0
  wordAcc := 0
  theta := none
  runs := []
  hist := []
  pNum := 0
  pDen := 1
  bits := []
  bidx := []
  frame := 0
  best := 0
  bestcnt := 0
  o := 0
  p := 0

/-- The width of a host access. -/
inductive Access where
  | byte
  | half
  | word
deriving DecidableEq, Repr

/-- What the host may do to the block (70 R153, R155), by space and host address: a register at PEX_BASE plus its
offset, a byte of CH0 to CH3, ACH0 or OUT at that memory's base plus its number (00_scope.md R8, 20_memory.md R50; log
entry 12). There is no move that writes OUT: never doing so is a host duty (R155; log entry 11). -/
inductive HostAction where
  /-- write `v` to the register at host address `addr`; at CMD this starts an operation -/
  | regWrite (addr : Nat) (acc : Access) (v : Word)
  /-- read the register at host address `addr` -/
  | regRead (addr : Nat) (acc : Access)
  /-- write the byte of slot `k` at host address `addr`; byte a of a slot holds samples 8·a to 8·a + 7 (20_memory.md
  R43) -/
  | chWrite (k : BitVec 2) (addr : Nat) (b : Byte)
  /-- write the byte of ACH0 at host address `addr`; its elements have the format ANALOG_FORMAT (93 I17; log entry
  7) -/
  | analogWrite (addr : Nat) (b : Byte)
  /-- read bytes of OUT from host address `addr` on -/
  | outRead (addr : Nat) (acc : Access)
  /-- the platform's hardware reset (70 R150) -/
  | hwReset
deriving DecidableEq, Repr

/-- Which agent moves next (log entry 2). -/
inductive Event where
  /-- the host acts -/
  | host (a : HostAction)
  /-- the block takes one micro-step -/
  | tick
  /-- the host polls STATUS until DONE = 1 (70 R153 step 6): the block runs its operation to the end; with no
  operation running and DONE = 0 nothing ends the wait (R155) -/
  | waitDone
deriving DecidableEq, Repr

/-- Why a step stops the machine. -/
inductive Fault where
  /-- Raised by the start of an operation whose slots do not hold samples 0 to N−1, and by a sample read
  that finds nothing written (70 R151, 93 I4). Safe: the hardware goes on with unspecified samples. -/
  | unwrittenSample
  /-- Raised by a sample read at an index at or above N (20 R41: it can arise only from a modelling
  error, in states no run reaches). Safe. -/
  | sampleOutOfRange
  /-- Raised by a host read of OUT at or above OUT_COUNT, or before the first operation since reset has finished
  (70 R151, 93 I5). Safe: the hardware returns some value. -/
  | outNotValid
  /-- Raised by a host write of a slot or of ACH0 beyond its last sample, number 2^32 − 1 (20 R40, 00 R8). Safe:
  there is no such sample. -/
  | noSuchSample
deriving DecidableEq, Repr

/-- Why a step has no meaning. -/
inductive Refusal where
  /-- Raised by an arm of `exec` whose operation has no meaning yet (none: every arm has one). Safe. -/
  | notModelled (mnemonic : String)
  /-- Raised by a host access to REG that is not a naturally aligned 32-bit access (20 R45, 93 I2). Safe. -/
  | regAccess
  /-- Raised by a host register access at a host address outside the 256 bytes from PEX_BASE, and by a host access
  to a memory below its base: it reaches another unit, of which the spec says nothing (20 R40, R50). Safe. -/
  | outsideBlock
deriving DecidableEq, Repr

/-- The whole machine: one decoder instance and its host. -/
structure State where
  /-- implementation parameters, never written (00_scope.md R8; log entry 1) -/
  cfg : Params
  /-- CMD (10_state.md R19) -/
  cmd : Word
  /-- LEN (R20) -/
  len : Word
  /-- SP_NUM (R21) -/
  spNum : Word
  /-- SP_DEN (R21) -/
  spDen : Word
  /-- BAUD (R22) -/
  baud : Word
  /-- STATUS (R23) -/
  status : Status
  /-- OUT_COUNT (R24) -/
  outCount : Word
  /-- BP_NUM (R25) -/
  bpNum : Word
  /-- BP_DEN_HI and BP_DEN_LO (R25) -/
  bpDen : DWord
  /-- UART_OFFSET (R25) -/
  uartOffset : Word
  /-- UART_BSLEN (R25) -/
  uartBslen : Word
  /-- CH0 (20_memory.md R40, R43) -/
  ch0 : Mem
  /-- CH1 -/
  ch1 : Mem
  /-- CH2 -/
  ch2 : Mem
  /-- CH3 -/
  ch3 : Mem
  /-- ACH0 (R40), by byte, elements in the format ANALOG_FORMAT (log entry 7) -/
  ach0 : Mem
  /-- OUT (R40, R47, R49), by byte -/
  out : Mem
  /-- latched operands (60 R136) -/
  op : Latched
  /-- control position of the running operation -/
  phase : Phase
  /-- working registers -/
  w : Work
  /-- the host wrote a sample slot during this operation (93 I3; log entry 10) -/
  tainted : Bool
  /-- some operation has finished since reset, so OUT can be read (70 R151, 93 I5; log entry 24) -/
  finishedOnce : Bool
  /-- the events still to come (log entry 2) -/
  script : List Event
  /-- what the host's last read returned (log entry 4) -/
  hostData : Word
  /-- free values drawn so far (log entry 5) -/
  free : Nat
deriving DecidableEq, Repr

/-- The machine right after hardware reset (70 R150, 10_state.md R18). -/
def State.reset : State where
  cfg := Params.default
  cmd := 0
  len := 0
  spNum := 0
  spDen := 1
  baud := 0
  status := { busy := false, done := false, result := 0 }
  outCount := 0
  bpNum := 0
  bpDen := 1
  uartOffset := 0
  uartBslen := 0
  ch0 := []
  ch1 := []
  ch2 := []
  ch3 := []
  ach0 := []
  out := []
  op := { n := 0, spNum := 0, spDen := 0, baud := 0 }
  phase := .idle
  w := Work.initial
  tainted := false
  finishedOnce := false
  script := []
  hostData := 0
  free := 0

end Sys2Proof.Machine
end

