-- ==== Sys2Proof/Machine/Flags.lean ====
section
/-! DEFINITION. STATUS and its RESULT codes (10_state.md R23, 60 R133), and the flag-like bits (10_state.md R38). -/

namespace Sys2Proof.Machine

/-- Completion codes (60 R133). -/
inductive Result where
  | ok
  | emptyNoPeriod
  | emptyTooShort
  | configError
  | outOverflow
  | bitsOverflow
deriving DecidableEq, Repr

/-- RESULT's code in STATUS[4:2] (10_state.md R23). -/
def Result.code : Result → BitVec 3
  | .ok => 0
  | .emptyNoPeriod => 1
  | .emptyTooShort => 2
  | .configError => 3
  | .outOverflow => 4
  | .bitsOverflow => 5

/-- STATUS as the host reads it: BUSY at 0, DONE at 1, RESULT at 4:2, the rest 0 (10_state.md R23). -/
def Status.word (st : Status) : Word :=
  (0#27 ++ st.result ++ BitVec.ofBool st.done ++ BitVec.ofBool st.busy : Word)

/-- STATUS while an operation runs (60 R136). -/
def Status.running : Status := { busy := true, done := false, result := 0 }

/-- STATUS after `finish(r)` (60 R138). -/
def Status.finished (r : Result) : Status := { busy := false, done := true, result := r.code }

/-- `popcount(v)` of a list of bits (00_scope.md R10). -/
def popcount (bs : List Bool) : Nat := bs.countP id

/-- Parity outcome `pok` of a frame with data bits `bs` and parity bit `q` (46_uart.md R125); with no
parity bit it is 1. A reserved mode never runs (30_encoding.md R66). -/
def parityOk (par : Parity) (bs : List Bool) (q : Bool) : Bool :=
  match par with
  | .odd => (popcount bs + q.toNat) % 2 == 1
  | .even => (popcount bs + q.toNat) % 2 == 0
  | .mark => q
  | .space => !q
  | .none | .reserved5 | .reserved6 | .reserved7 => true

end Sys2Proof.Machine
end

