-- ==== Sys2Proof/Machine/Ops.lean ====
section
/-! DEFINITION. The named operations over memories and registers: sample read, edge predicates, emit, finish, refusal, in-band error
entry, and running an operation's micro-steps (20_memory.md, 40_edge_extractor.md R72, 60_exceptions.md R134 to R139). -/

namespace Sys2Proof.Machine

/-! ## Stores: pairs sorted by key, no repeats -/

/-- The value listed for `a`. -/
def storeRead {α : Type} : List (Nat × α) → Nat → Option α
  | [], _ => none
  | (k, v) :: m, a => if a = k then some v else storeRead m a

/-- List `v` for `a`, keeping the keys strictly rising. -/
def storeWrite {α : Type} : List (Nat × α) → Nat → α → List (Nat × α)
  | [], a, v => [(a, v)]
  | (k, x) :: m, a, v =>
    if a < k then (a, v) :: (k, x) :: m
    else if a = k then (a, v) :: m
    else (k, x) :: storeWrite m a v

/-- The canonical form: keys strictly rising. An unlisted key has no value, so no entry can repeat it. -/
def storeWf {α : Type} : List (Nat × α) → Bool
  | [] => true
  | [_] => true
  | (k, _) :: (l, y) :: m => decide (k < l) && storeWf ((l, y) :: m)

/-- The canonical form of a byte memory. -/
def Mem.wf (m : Mem) : Bool := storeWf m

/-- Write a 32-bit word at byte address `a`, little-endian (20_memory.md R44). -/
def writeWord (m : Mem) (a : Nat) (v : Word) : Mem :=
  storeWrite (storeWrite (storeWrite (storeWrite m a (v.extractLsb' 0 8)) (a + 1) (v.extractLsb' 8 8))
    (a + 2) (v.extractLsb' 16 8)) (a + 3) (v.extractLsb' 24 8)

/-- The byte listed at `a`, 0 when none is: used only by the post-pass on records it has itself written
(log entry 21). -/
def byteAt (m : Mem) (a : Nat) : Byte := (storeRead m a).getD 0

/-- The word at byte address `a`, little-endian (20_memory.md R44). -/
def wordAt (m : Mem) (a : Nat) : Word :=
  (byteAt m (a + 3) ++ byteAt m (a + 2) ++ byteAt m (a + 1) ++ byteAt m a : Word)

/-- The `n` bytes at `a`, little-endian (20_memory.md R44), or none when one of them holds nothing. -/
def bytesAt (m : Mem) : Nat → Nat → Option Nat
  | 0, _ => some 0
  | n + 1, a =>
    match storeRead m a, bytesAt m n (a + 1) with
    | some b, some v => some (b.toNat + 256 * v)
    | _, _ => none

/-! ## Sample reads and edges -/

/-- The memory of slot CHk. -/
def State.chan (s : State) (k : BitVec 2) : Mem :=
  match k.toNat with
  | 0 => s.ch0
  | 1 => s.ch1
  | 2 => s.ch2
  | _ => s.ch3

/-- N of the running operation (60 R136). -/
def State.n (s : State) : Nat := s.op.n.toNat

/-- The sample at index `i` of a slot's bytes: bit i mod 8 of byte i div 8 (20_memory.md R43). -/
def sampleIn (m : Mem) (i : Nat) : Option Bool := (storeRead m (i / 8)).map (·.getLsbD (i % 8))

/-- `smp(k, i)` (20_memory.md R41). -/
def State.smp (s : State) (k : BitVec 2) (i : Nat) : Except Fault Bool :=
  if i < s.n then
    match sampleIn (s.chan k) i with
    | some b => .ok b
    | none => .error .unwrittenSample
  else .error .sampleOutOfRange

/-- `ach(i)` (20_memory.md R41): element `i` of ACH0, or none when a byte of it holds nothing (log entry 7). -/
def State.ach (s : State) (i : Nat) : Option Rat :=
  let f := s.cfg.analogFormat
  (bytesAt s.ach0 f.bytes (f.bytes * i)).map f.value

/-- The levels of slot `k` at i − 1 and at i; at index 0, where no edge exists (40 R72), the level twice. -/
def State.levels (s : State) (k : BitVec 2) (i : Nat) : Except Fault (Bool × Bool) := do
  let p ← s.smp k (i - 1)
  let c ← s.smp k i
  return (p, c)

/-- `rise`, on the levels before and at the index (40 R72). -/
def rise (l : Bool × Bool) : Bool := !l.1 && l.2

/-- `fall`, on the levels before and at the index (40 R72). -/
def fall (l : Bool × Bool) : Bool := l.1 && !l.2

/-- `edge` = `rise` or `fall` (40 R72). -/
def edge (l : Bool × Bool) : Bool := rise l || fall l

/-! ## Start, finish and refusal of an operation -/

/-- OUT_COUNT and the diagnostic registers at the start of an operation (60 R136, 10_state.md R25). -/
def State.clearOutputs (s : State) : State :=
  { s with outCount := 0, bpNum := 0, bpDen := 1, uartOffset := 0, uartBslen := 0 }

/-- A host write of `c` to CMD while BUSY = 0: store, latch, and raise BUSY (60 R136). The legality check
and the initialisation are the block's first micro-step (log entry 16). -/
def State.startCommand (s : State) (c : Word) : State :=
  { s.clearOutputs with
    cmd := c
    op := { n := s.len, spNum := s.spNum, spDen := s.spDen, baud := s.baud }
    status := .running
    phase := .start
    tainted := false }

/-- The results of an operation during which the host wrote a slot are any value (93 I3); RESULT stays
one of the codes the block produces (93 I9). -/
def State.scramble (s : State) : State :=
  let c := s.free
  { s with
    status := { s.status with result := BitVec.ofNat 3 ((Config.freeWord c).toNat % 6) }
    outCount := Config.freeWord (c + 1)
    bpNum := Config.freeWord (c + 2)
    bpDen := Config.freeWord (c + 3) ++ Config.freeWord (c + 4)
    uartOffset := Config.freeWord (c + 5)
    uartBslen := Config.freeWord (c + 6)
    out := (List.range (16 * (Config.freeWord (c + 1)).toNat)).map fun a => (a, Config.freeByte c a)
    tainted := false
    free := c + 7 }

/-- `finish(r)` (60 R138): STATUS is written, the working registers are discarded. -/
def State.finish (s : State) (r : Result) : State :=
  let t := { s with status := .finished r, phase := .idle, w := Work.initial, finishedOnce := true }
  if s.tainted then t.scramble else t

/-- `raise Refuse(CONFIG_ERROR)` (60 R137). -/
def State.refuse (s : State) : State := s.finish .configError

/-! ## Output -/

/-- Record number OUT_COUNT of OUT is written and OUT_COUNT counts it (20_memory.md R47, 30_encoding.md R68). -/
def State.pushRecord (s : State) (a : Annotation) : State :=
  let at0 := 16 * s.outCount.toNat
  { s with
    out := writeWord (writeWord (writeWord (writeWord s.out at0 (BitVec.ofNat 32 a.start))
      (at0 + 4) (BitVec.ofNat 32 a.stop)) (at0 + 8) a.tagWord) (at0 + 12) a.payload.value
    outCount := s.outCount + 1 }

/-- Emit the annotations in order, then go on with `k`; an emit that finds OUT full writes nothing and ends
the operation with OUT_OVERFLOW (20_memory.md R47, 60 R139). -/
def State.emitAll : List Annotation → State → (State → State) → State
  | [], s, k => k s
  | a :: as, s, k =>
    if s.outCount.toNat < s.cfg.outCap.toNat then emitAll as (s.pushRecord a) k
    else s.finish .outOverflow

/-- One `emit(label, colour, start, end, payload)`, then `k`. -/
def State.emit (s : State) (a : Annotation) (k : State → State) : State := State.emitAll [a] s k

/-- EDGES: index word `v` at byte 4 · OUT_COUNT, then `k`; full at 4 · OUT_CAP words (20_memory.md R49, 40 R75). -/
def State.emitIndex (s : State) (v : Nat) (k : State → State) : State :=
  if s.outCount.toNat < 4 * s.cfg.outCap.toNat then
    k { s with
      out := writeWord s.out (4 * s.outCount.toNat) (BitVec.ofNat 32 v)
      outCount := s.outCount + 1 }
  else s.finish .outOverflow

/-! ## In-band protocol errors -/

/-- `st <- q; s <- i` (41 R78): every 1-Wire transition records the index of entry. -/
def State.owEnter (s : State) (q : OwState) : State :=
  { s with w := { s.w with ow := q, entry := s.w.i } }

/-- Entry into error handling (60 R134): emit the ERROR annotation over [s, i), return to Idle, `s <- i`;
the scan resumes at i + 1 (60 R135). -/
def State.protocolError (s : State) (l : Label) : State :=
  s.emit { label := l, colour := .error, start := s.w.entry, stop := s.w.i, payload := .none }
    (·.owEnter .idle)

/-! ## Micro-steps -/

/-- `pc <- i + 1`, unless the step has ended the operation (10_state.md R17). -/
def State.advance (s : State) : State :=
  if s.status.busy then { s with w := { s.w with i := s.w.i + 1 } } else s

/-- One micro-step of a per-sample scan: the step at `i`, or what follows the last index. -/
def scanMove (stepAt : State → Except Fault State) (atEnd : State → State) (s : State) :
    Host.Outcome State Fault Refusal :=
  if s.w.i < s.n then
    match stepAt s with
    | .ok t => .next t.advance
    | .error f => .fault f
  else .next (atEnd s)

/-- Take micro-steps until the operation has finished, at most the given number of them. -/
def runMoves (move : State → Host.Outcome State Fault Refusal) :
    Nat → State → Host.Outcome State Fault Refusal
  | 0, s => .next s
  | fuel + 1, s =>
    if s.status.busy then
      match move s with
      | .next t => runMoves move fuel t
      | .fault f => .fault f
      | .refused r => .refused r
    else .next s

/-- More micro-steps than any operation takes from `s` to its end (70 R164; log entry 3). -/
def State.stepBound (s : State) : Nat :=
  3 * s.n + s.outCount.toNat + s.w.fe.length + 2 * s.w.bits.length + 3 * s.cfg.bitsCap.toNat + 16

/-- Run an operation, given by its micro-step, to its end (60 R138). -/
def runOperation (move : State → Host.Outcome State Fault Refusal) (s : State) :
    Host.Outcome State Fault Refusal :=
  runMoves move s.stepBound s

end Sys2Proof.Machine
end

