-- ==== Sys2Proof/Machine/Operands.lean ====
section
/-! DEFINITION. The operands of an operation: legality (30_encoding.md R66), slot binding (20_memory.md R42), filters and sampling edges
(40 R73, 42 R95, 44 R108), time comparison (00_scope.md R14), and the start of an operation (60 R136). -/

namespace Sys2Proof.Machine

/-! ## Legality -/

/-- The latched operands are legal: SP_NUM ≥ 1, SP_DEN ≥ 1, and BAUD ≥ 1 where the operation reads it (R66). -/
def Latched.legal (op : Latched) : Instr → Bool
  | .uart _ _ _ auto _ =>
    decide (1 ≤ op.spNum.toNat ∧ 1 ≤ op.spDen.toNat) && (auto || decide (1 ≤ op.baud.toNat))
  | .edges _ _ | .onewire | .spi3 _ | .spi4 _ _ | .i2c | .sync _ | .i2s _ _ _ _ =>
    decide (1 ≤ op.spNum.toNat ∧ 1 ≤ op.spDen.toNat)

/-- No configuration error (R66). -/
def legal (i : Instr) (s : State) : Bool := i.wf && s.op.legal i

/-! ## Slots -/

/-- The boolean slots an operation reads (20_memory.md R42). -/
def opSlots : Instr → List (BitVec 2)
  | .edges _ slot => [slot]
  | .onewire => [0]
  | .spi3 _ => [0, 1, 2]
  | .spi4 _ _ => [0, 1, 2, 3]
  | .i2c => [0, 1]
  | .sync _ => [0, 1]
  | .i2s _ _ _ _ => [0, 1, 2]
  | .uart _ _ _ _ analog => if analog then [] else [0]

/-- The operation reads ACH0 (20_memory.md R42). -/
def opReadsAnalog : Instr → Bool
  | .uart _ _ _ _ analog => analog
  | .edges _ _ | .onewire | .spi3 _ | .spi4 _ _ | .i2c | .sync _ | .i2s _ _ _ _ => false

/-- The bytes that hold samples 0 to n − 1 are all listed (20_memory.md R43). -/
def covered (m : Mem) (n : Nat) : Bool := (List.range ((n + 7) / 8)).all fun a => (storeRead m a).isSome

/-- Samples 0 to N − 1 of everything the operation reads are written (70 R151). -/
def samplesWritten (i : Instr) (s : State) : Bool :=
  (opSlots i).all (fun k => covered (s.chan k) s.n) &&
    (!opReadsAnalog i || (List.range s.n).all fun a => (s.ach a).isSome)

/-! ## The first micro-step -/

/-- The first micro-step of an operation (60 R136): clear the outputs, refuse an illegal command, fault on
unwritten samples (70 R151), otherwise give the working registers their initial values and go on. -/
def startMove (i : Instr) (enter : State → State) (s : State) : Host.Outcome State Fault Refusal :=
  let t := s.clearOutputs
  if legal i t then
    if samplesWritten i t then .next (enter { t with w := Work.initial, phase := .scan })
    else .fault .unwrittenSample
  else .next t.refuse

/-! ## Filters and sampling edges -/

/-- `match(FILT, k, i)` (40 R73). -/
def filterHit (f : Filter) (l : Bool × Bool) : Bool :=
  match f with
  | .any => edge l
  | .rising => rise l
  | .falling => fall l
  | .reserved => false

/-- The sampling edge of a clock (42 R95, 44 R108). -/
def edgeHit (e : ClockEdge) (l : Bool × Bool) : Bool :=
  match e with
  | .rising => rise l
  | .falling => fall l

/-- The EdgeExtractor's filter for a sampling edge (45 R110). -/
def edgeFilter : ClockEdge → Filter
  | .rising => .rising
  | .falling => .falling

/-- `acc <- ((acc << 1) | b) mod 256` (10_state.md R35). -/
def shiftIn (acc : Byte) (b : Bool) : Byte := (acc <<< 1) ||| BitVec.zeroExtend 8 (BitVec.ofBool b)

/-- A register value as a 32-bit payload. -/
def payloadOf (acc : Byte) (width : Nat) : Payload := .int (acc.zeroExtend 32) width

/-! ## Time -/

/-- Δ scaled: (i − s) · SP_NUM · 10^6 (00_scope.md R14). -/
def State.elapsed (s : State) : Nat := (s.w.i - s.w.entry) * s.op.spNum.toNat * 1000000

/-- A threshold of t µs scaled: t · SP_DEN (00_scope.md R14). -/
def State.micros (s : State) (t : Nat) : Nat := t * s.op.spDen.toNat

end Sys2Proof.Machine
end

