-- ==== Sys2Proof/Machine/Edges.lean ====
section
/-! DEFINITION. EdgeExtractor and the EDGES operation (40_edge_extractor.md). -/

namespace Sys2Proof.Machine

/-- The indices of `is` at which the filter matches, in order. -/
def edgesAmong (s : State) (k : BitVec 2) (f : Filter) : List Nat → Except Fault (List Nat)
  | [] => .ok []
  | i :: is => do
    let l ← s.levels k i
    let rest ← edgesAmong s k f is
    return if filterHit f l then i :: rest else rest

/-- `Edges(k, FILT)`: every index in [1, N) with `match(FILT, k, i)`, increasing (R74). -/
def State.edgeList (s : State) (k : BitVec 2) (f : Filter) : Except Fault (List Nat) :=
  edgesAmong s k f (List.range' 1 (s.n - 1))

/-- The EDGES step at index i (R75). -/
def edgesStep (filt : Filter) (l : Bool × Bool) (s : State) : State :=
  if filterHit filt l then s.emitIndex s.w.i id else s

/-- One micro-step of EDGES. -/
def edgesMove (filt : Filter) (slot : BitVec 2) (s : State) : Host.Outcome State Fault Refusal :=
  match s.phase with
  | .start => startMove (.edges filt slot) id s
  | .idle | .scan | .widen | .bitEdges | .words | .period | .resample | .search | .walk =>
    scanMove (fun s => do
      let l ← s.levels slot s.w.i
      return edgesStep filt l s) (·.finish .ok) s

/-- EDGES (R75). -/
def execEdges (filt : Filter) (slot : BitVec 2) (s : State) : Host.Outcome State Fault Refusal :=
  runOperation (edgesMove filt slot) s

end Sys2Proof.Machine
end

