-- ==== Sys2Proof/Machine/Widen.lean ====
section
/-! DEFINITION. The start-marker widening post-pass (47_postprocess.md). -/

namespace Sys2Proof.Machine

/-- START of record n (30_encoding.md R68). -/
def recStart (m : Mem) (n : Nat) : Nat := (wordAt m (16 * n)).toNat

/-- END of record n (30_encoding.md R68). -/
def recStop (m : Mem) (n : Nat) : Nat := (wordAt m (16 * n + 4)).toNat

/-- LABEL of record n: bits 15:8 of word 2 (30_encoding.md R68). -/
def recLabel (m : Mem) (n : Nat) : Byte := byteAt m (16 * n + 9)

/-- The least record m with j < m < n and label P, if any (R129). -/
def nextStop (out : Mem) (n j : Nat) : Option Nat :=
  (List.range' (j + 1) (n - (j + 1))).find? fun m => recLabel out m == Label.pMark.code

/-- The widened start of record j before the next stop marker m (R129). -/
def widenedStart (out : Mem) (j m : Nat) : Nat :=
  max (recStart out j - (recStop out m - recStart out m)) (if j > 0 then recStart out (j - 1) else 0)

/-- OUT after the post-pass has looked at record j of n (R129, 20_memory.md R48). -/
def widenRecord (out : Mem) (n j : Nat) : Mem :=
  if recLabel out j = Label.sMark.code ∧ recStart out j = recStop out j then
    match nextStop out n j with
    | some m => writeWord out (16 * j) (BitVec.ofNat 32 (widenedStart out j m))
    | none => out
  else out

/-- Enter the post-pass (R128). -/
def State.beginWiden (s : State) : State := { s with phase := .widen, w := { s.w with j := 0 } }

/-- One micro-step of the post-pass: record j, or the end of the operation (R129). -/
def widenMove (s : State) : State :=
  if s.w.j < s.outCount.toNat then
    { s with
      out := widenRecord s.out s.outCount.toNat s.w.j
      w := { s.w with j := s.w.j + 1 } }
  else s.finish .ok

end Sys2Proof.Machine
end

