-- ==== Sys2Proof/Machine/I2c.lean ====
section
/-! DEFINITION. The I2C start/stop/ACK framer (43_i2c.md). -/

namespace Sys2Proof.Machine

/-- Start condition: SDA falls while SCL is high before and at the index (R100). -/
def startCond (scl sda : Bool × Bool) : Bool := fall sda && scl.1 && scl.2

/-- Stop condition: SDA rises while SCL is high before and at the index (R100). -/
def stopCond (scl sda : Bool × Bool) : Bool := rise sda && scl.1 && scl.2

/-- Start, or repeated start, at i (R102). -/
def i2cStart (s : State) : State :=
  s.emit { label := .sMark, colour := .event, start := s.w.i, stop := s.w.i, payload := .none }
    fun t => { t with
      w := { t.w with bus := .active, acc := 0, left := 8, first := true, last := t.w.i } }

/-- Stop at i (R103). -/
def i2cStop (s : State) : State :=
  match s.w.bus with
  | .active =>
    s.emit { label := .pMark, colour := .event, start := s.w.last, stop := s.w.i, payload := .none }
      fun t => { t with w := { t.w with bus := .idle } }
  | .idle => s

/-- The annotation of a completed group whose ACK bit is `ack` (R105). -/
def i2cGroup (ack : Bool) (w : Work) : Annotation :=
  if w.first then
    { label := if w.acc.getLsbD 0 then .rFlag else .wFlag
      colour := if ack then .warning else .address
      start := w.gs
      stop := w.i
      payload := payloadOf (w.acc >>> 1) 7 }
  else
    { label := .data
      colour := if ack then .warning else .data
      start := w.gs
      stop := w.i
      payload := payloadOf w.acc 8 }

/-- SCL rising edge at i while Active, SDA there being `b` (R104). -/
def i2cBit (b : Bool) (s : State) : State :=
  let t := { s with w := { s.w with gs := if s.w.left = 8 then s.w.i else s.w.gs } }
  if t.w.left > 0 then
    { t with w := { t.w with acc := shiftIn t.w.acc b, left := t.w.left - 1, last := t.w.i } }
  else
    t.emit (i2cGroup b t.w) fun u => { u with
      w := { u.w with left := 8, acc := 0, first := false, last := u.w.i } }

/-- `I2C_STEP(i)` on the levels of SCL and SDA at i − 1 and i (R101). -/
def i2cStep (scl sda : Bool × Bool) (s : State) : State :=
  if startCond scl sda then i2cStart s
  else if stopCond scl sda then i2cStop s
  else if s.w.bus = .active ∧ rise scl = true then i2cBit sda.2 s
  else s

/-- One micro-step of I2C (R99): SCL is CH0, SDA is CH1. -/
def i2cMove (s : State) : Host.Outcome State Fault Refusal :=
  match s.phase with
  | .start => startMove .i2c id s
  | .widen => .next (widenMove s)
  | .idle | .scan | .bitEdges | .words | .period | .resample | .search | .walk =>
    scanMove (fun s => do
      let scl ← s.levels 0 s.w.i
      let sda ← s.levels 1 s.w.i
      return i2cStep scl sda s) (·.beginWiden) s

/-- I2C (R99). -/
def execI2c (s : State) : Host.Outcome State Fault Refusal := runOperation i2cMove s

end Sys2Proof.Machine
end

