-- ==== Sys2Proof/Machine/I2s.lean ====
section
/-! DEFINITION. The I2S word-boundary detector (45_i2s.md). -/

namespace Sys2Proof.Machine

/-- The word window of the frame half [f, g), if there is one (R111). -/
def i2sWindow (be : List Nat) (delay bpw f g : Nat) : Option (List Nat) :=
  let c := be.filter (fun e => decide (f < e))
  if c.length < delay + bpw ∨ g ≤ c.getD delay g then none
  else some ((c.drop delay).take bpw)

/-- The samples of SD at the indices of a window (R112). -/
def samplesAt (s : State) (k : BitVec 2) : List Nat → Except Fault (List Bool)
  | [] => .ok []
  | i :: is => do
    let b ← s.smp k i
    let rest ← samplesAt s k is
    return b :: rest

/-- The value of bits given first to last, the first the most significant. -/
def msbValue (bs : List Bool) : Nat := bs.foldl (fun v b => 2 * v + b.toNat) 0

/-- The value of bits given first to last, the first the least significant. -/
def lsbValue : List Bool → Nat
  | [] => 0
  | b :: bs => b.toNat + 2 * lsbValue bs

/-- The word value, in the 32-bit accumulator (R112, 10_state.md R35). -/
def i2sValue (order : BitOrder) (bs : List Bool) : Word :=
  match order with
  | .msb => BitVec.ofNat 32 (msbValue bs)
  | .lsb => BitVec.ofNat 32 (lsbValue bs)

/-- `I2S_WORD(f, g)`, then `k <- k + 1` (R110 to R112): LRCK is CH0, SD is CH2. The accumulator takes the whole word
value in one assignment and keeps it until the next word (DESIGN CHOICE, log entry 25). -/
def i2sWord (bpw : BitVec 6) (delay : BitVec 4) (order : BitOrder) (f g : Nat) (s : State) :
    Except Fault State :=
  let step : State → State := fun t => { t with w := { t.w with k := t.w.k + 1 } }
  match i2sWindow s.w.be delay.toNat bpw.toNat f g with
  | none => .ok (step s)
  | some win => do
    let bs ← samplesAt s 2 win
    let lr ← s.smp 0 f
    let t := { s with w := { s.w with wordAcc := i2sValue order bs } }
    return t.emit { label := if lr then .rFlag else .left, colour := .data, start := f, stop := g,
                    payload := .int t.w.wordAcc bpw.toNat } step

/-- One index of the extraction of FE: LRCK (CH0), both directions (R110, 10_state.md R31). -/
def i2sFrameEdge (l : Bool × Bool) (s : State) : State :=
  if filterHit .any l then { s with w := { s.w with fe := s.w.fe ++ [s.w.i] } } else s

/-- One index of the extraction of BE: BCLK (CH1), the sampling edge (R110, 10_state.md R31). -/
def i2sBitEdge (bedge : ClockEdge) (l : Bool × Bool) (s : State) : State :=
  if filterHit (edgeFilter bedge) l then { s with w := { s.w with be := s.w.be ++ [s.w.i] } } else s

/-- One micro-step of I2S (R110): the two extractions one index at a time, then one frame half at a time. -/
def i2sMove (bpw : BitVec 6) (delay : BitVec 4) (order : BitOrder) (bedge : ClockEdge) (s : State) :
    Host.Outcome State Fault Refusal :=
  match s.phase with
  | .start => startMove (.i2s bpw delay order bedge) id s
  | .scan =>
    scanMove (fun s => do
      let l ← s.levels 0 s.w.i
      return i2sFrameEdge l s) (fun s => { s with phase := .bitEdges, w := { s.w with i := 1 } }) s
  | .bitEdges =>
    scanMove (fun s => do
      let l ← s.levels 1 s.w.i
      return i2sBitEdge bedge l s) (fun s => { s with phase := .words, w := { s.w with k := 0 } }) s
  | .idle | .widen | .words | .period | .resample | .search | .walk =>
    match s.w.fe[s.w.k]?, s.w.fe[s.w.k + 1]? with
    | some f, some g =>
      match i2sWord bpw delay order f g s with
      | .ok t => .next t
      | .error e => .fault e
    | _, _ => .next (s.finish .ok)

/-- I2S (R110). -/
def execI2s (bpw : BitVec 6) (delay : BitVec 4) (order : BitOrder) (bedge : ClockEdge) (s : State) :
    Host.Outcome State Fault Refusal :=
  runOperation (i2sMove bpw delay order bedge) s

end Sys2Proof.Machine
end

