-- ==== Sys2Proof/Machine/OneWire.lean ====
section
/-! DEFINITION. The 1-Wire FSM decoder (41_onewire.md). -/

namespace Sys2Proof.Machine

/-- An annotation over [s, i), then `st <- q; s <- i`. -/
def State.owEmit (s : State) (label : Label) (colour : Colour) (payload : Payload) (q : OwState) : State :=
  s.emit { label := label, colour := colour, start := s.w.entry, stop := s.w.i, payload := payload }
    (·.owEnter q)

/-- ResetMasterPulse, rising edge (R80). -/
def owResetEnd (s : State) : State :=
  if s.elapsed > s.micros s.cfg.owRstlMin then s.owEmit .reset .event .none .resetSlaveWait
  else s.protocolError .resetNotLongEnough

/-- ResetSlaveWait, falling edge (R81). -/
def owPresenceStart (s : State) : State :=
  if s.micros s.cfg.owPdhMin < s.elapsed ∧ s.elapsed < s.micros s.cfg.owPdhMax then
    s.owEnter .resetSlavePulse
  else s.protocolError .untimelyResponse

/-- ResetSlavePulse, rising edge (R82). -/
def owPresenceEnd (s : State) : State :=
  if s.micros s.cfg.owPdlMin < s.elapsed ∧ s.elapsed < s.micros s.cfg.owPdlMax then
    s.owEmit .rAck .event .none .active
  else s.protocolError .wrongAckWidth

/-- ActiveFallen, rising edge: classify the low time (R84). -/
def owSlotEnd (s : State) : State :=
  if s.elapsed < s.micros s.cfg.owOne then s.owEmit .bitOne .data (.int 1 1) .one
  else if s.elapsed < s.micros s.cfg.owSlot then s.owEmit .bitZero .read (.int 0 1) .masterReadingZero
  else s.owEmit .bitZero .write (.int 0 1) .masterWritingZero

/-- ActiveFallen, no rising edge: the watchdog (R85). -/
def owWatchdog (s : State) : State :=
  if s.elapsed > s.micros (s.cfg.owWdSlots * s.cfg.owSlot) then s.protocolError .timeOut else s

/-- `OW_STEP(i)` on the levels at i − 1 and i (R78 to R86). -/
def owStep (l : Bool × Bool) (s : State) : State :=
  match s.w.ow with
  | .idle => if fall l then s.owEnter .resetMasterPulse else s
  | .resetMasterPulse => if rise l then owResetEnd s else s
  | .resetSlaveWait => if fall l then owPresenceStart s else s
  | .resetSlavePulse => if rise l then owPresenceEnd s else s
  | .active | .one | .masterWritingZero | .masterReadingZero =>
    if fall l then s.owEnter .activeFallen else s
  | .activeFallen => if rise l then owSlotEnd s else owWatchdog s

/-- One micro-step of ONEWIRE (R77). -/
def onewireMove (s : State) : Host.Outcome State Fault Refusal :=
  match s.phase with
  | .start => startMove .onewire id s
  | .idle | .scan | .widen | .bitEdges | .words | .period | .resample | .search | .walk =>
    scanMove (fun s => do
      let l ← s.levels 0 s.w.i
      return owStep l s) (·.finish .ok) s

/-- ONEWIRE (R77). -/
def execOnewire (s : State) : Host.Outcome State Fault Refusal := runOperation onewireMove s

end Sys2Proof.Machine
end

