-- ==== Sys2Proof/Machine/Spi.lean ====
section
/-! DEFINITION. The 3-wire and 4-wire SPI FSM decoders (42_spi.md). -/

namespace Sys2Proof.Machine

/-! ## Transaction framing, both decoders -/

/-- nCS falls at i (R89). The bit registers only the other decoder has are cleared too (DESIGN CHOICE, log entry 26). -/
def spiOpen (s : State) : State :=
  s.emit { label := .sMark, colour := .event, start := s.w.i, stop := s.w.i, payload := .none }
    fun t => { t with
      w := { t.w with
        bus := .active
        first := true
        cnt := 0
        acc := 0
        mo := 0
        mi := 0
        rw := false
        last := t.w.i } }

/-- nCS rises at i (R90). -/
def spiClose (s : State) : State :=
  match s.w.bus with
  | .active =>
    s.emit { label := .pMark, colour := .event, start := s.w.last, stop := s.w.i, payload := .none }
      fun t => { t with w := { t.w with bus := .idle } }
  | .idle => s

/-- The precedence at one index: nCS falling, nCS rising, then a sampling edge while Active (R88). -/
def spiStep (ncs : Bool × Bool) (sampling : Bool) (bit : State → State) (s : State) : State :=
  if fall ncs then spiOpen s
  else if rise ncs then spiClose s
  else if s.w.bus = .active ∧ sampling = true then bit s
  else s

/-! ## SPI3 -/

/-- `SPI3_BYTE(i)`, then `cnt <- 0; acc <- 0` (R92, R93). -/
def spi3Byte (rwpos : BitVec 3) (s : State) : State :=
  if s.w.first then
    s.emit { label := .address, colour := .address, start := s.w.bs, stop := s.w.i, payload := payloadOf s.w.acc 8 }
      fun t => { t with
        w := { t.w with rw := t.w.acc.getLsbD rwpos.toNat, first := false, cnt := 0, acc := 0 } }
  else
    s.emit { label := if s.w.rw then .read else .write, colour := .data, start := s.w.bs, stop := s.w.i,
             payload := payloadOf s.w.acc 8 }
      fun t => { t with w := { t.w with cnt := 0, acc := 0 } }

/-- The bit registers after SPI3 has shifted in `b` at i (R92). -/
def spi3Shift (b : Bool) (w : Work) : Work :=
  { w with
    bs := if w.cnt = 0 then w.i else w.bs
    acc := shiftIn w.acc b
    cnt := w.cnt + 1
    last := w.i }

/-- SPI3 bit at i (R92). -/
def spi3Bit (rwpos : BitVec 3) (b : Bool) (s : State) : State :=
  let t := { s with w := spi3Shift b s.w }
  if t.w.cnt = 8 then spi3Byte rwpos t else t

/-- One micro-step of SPI3 (R91): nCS is CH0, SCLK is CH1, SDIO is CH2. -/
def spi3Move (rwpos : BitVec 3) (s : State) : Host.Outcome State Fault Refusal :=
  match s.phase with
  | .start => startMove (.spi3 rwpos) id s
  | .widen => .next (widenMove s)
  | .idle | .scan | .bitEdges | .words | .period | .resample | .search | .walk =>
    scanMove (fun s => do
      let ncs ← s.levels 0 s.w.i
      let clk ← s.levels 1 s.w.i
      let d ← s.smp 2 s.w.i
      return spiStep ncs (rise clk) (spi3Bit rwpos d) s) (·.beginWiden) s

/-- SPI3 (R91). -/
def execSpi3 (rwpos : BitVec 3) (s : State) : Host.Outcome State Fault Refusal :=
  runOperation (spi3Move rwpos) s

/-! ## SPI4 -/

/-- `SPI4_BYTE(i)`, then `cnt <- 0; mo <- 0; mi <- 0` (R96, R97). -/
def spi4Byte (s : State) : State :=
  let next : State → State := fun t => { t with
    w := { t.w with first := false, cnt := 0, mo := 0, mi := 0 } }
  if s.w.first then
    s.emit { label := .command, colour := .control, start := s.w.bs, stop := s.w.i, payload := payloadOf s.w.mo 8 } next
  else if s.w.mo ≠ 0x00 ∧ s.w.mo ≠ 0xFF then
    s.emit { label := .mOut, colour := .data, start := s.w.bs, stop := s.w.i, payload := payloadOf s.w.mo 8 } next
  else
    s.emit { label := .sOut, colour := .data, start := s.w.bs, stop := s.w.i, payload := payloadOf s.w.mi 8 } next

/-- The bit registers after SPI4 has shifted in MOSI and MISO at i (R96). -/
def spi4Shift (mosi miso : Bool) (w : Work) : Work :=
  { w with
    bs := if w.cnt = 0 then w.i else w.bs
    mo := shiftIn w.mo mosi
    mi := shiftIn w.mi miso
    cnt := w.cnt + 1
    last := w.i }

/-- SPI4 bit at i (R96). -/
def spi4Bit (mosi miso : Bool) (s : State) : State :=
  let t := { s with w := spi4Shift mosi miso s.w }
  if t.w.cnt = 8 then spi4Byte t else t

/-- One micro-step of SPI4 (R94): nCS is CH0, SCLK is CH1, MOSI is CH2, MISO is CH3. CPOL has no effect (R95). -/
def spi4Move (cpol : Bool) (cpha : ClockEdge) (s : State) : Host.Outcome State Fault Refusal :=
  match s.phase with
  | .start => startMove (.spi4 cpol cpha) id s
  | .widen => .next (widenMove s)
  | .idle | .scan | .bitEdges | .words | .period | .resample | .search | .walk =>
    scanMove (fun s => do
      let ncs ← s.levels 0 s.w.i
      let clk ← s.levels 1 s.w.i
      let mosi ← s.smp 2 s.w.i
      let miso ← s.smp 3 s.w.i
      return spiStep ncs (edgeHit cpha clk) (spi4Bit mosi miso) s) (·.beginWiden) s

/-- SPI4 (R94). -/
def execSpi4 (cpol : Bool) (cpha : ClockEdge) (s : State) : Host.Outcome State Fault Refusal :=
  runOperation (spi4Move cpol cpha) s

end Sys2Proof.Machine
end

