-- ==== Sys2Proof/Machine/Sync.lean ====
section
/-! DEFINITION. The synchronous serial FSM decoder (44_sync_serial.md). -/

namespace Sys2Proof.Machine

/-- The bit registers after SYNC has shifted in `b` at i (R109). -/
def syncShift (b : Bool) (w : Work) : Work :=
  { w with
    bs := if w.cnt = 0 then w.i else w.bs
    acc := shiftIn w.acc b
    cnt := w.cnt + 1 }

/-- `SYNC_STEP(i)` (R109). -/
def syncStep (sampling b : Bool) (s : State) : State :=
  if sampling then
    let t := { s with w := syncShift b s.w }
    if t.w.cnt = 8 then
      t.emit { label := .data, colour := .data, start := t.w.bs, stop := t.w.i, payload := payloadOf t.w.acc 8 }
        fun u => { u with w := { u.w with cnt := 0, acc := 0 } }
    else t
  else s

/-- One micro-step of SYNC (R107): CLK is CH0, DATA is CH1. -/
def syncMove (cpha : ClockEdge) (s : State) : Host.Outcome State Fault Refusal :=
  match s.phase with
  | .start => startMove (.sync cpha) id s
  | .idle | .scan | .widen | .bitEdges | .words | .period | .resample | .search | .walk =>
    scanMove (fun s => do
      let clk ← s.levels 0 s.w.i
      let d ← s.smp 1 s.w.i
      return syncStep (edgeHit cpha clk) d s) (·.finish .ok) s

/-- SYNC (R107). -/
def execSync (cpha : ClockEdge) (s : State) : Host.Outcome State Fault Refusal :=
  runOperation (syncMove cpha) s

end Sys2Proof.Machine
end

