-- ==== Sys2Proof/Machine/Uart.lean ====
section
/-! DEFINITION. The asynchronous UART decoder: analog front end, runs, bit period, bitstream, frame search and frame walk (46_uart.md). -/

namespace Sys2Proof.Machine

/-! ## Analog front end (R114) -/

/-- Count one more occurrence of `v`. -/
def bump (v : Rat) : List (Rat × Nat) → List (Rat × Nat)
  | [] => [(v, 1)]
  | (x, c) :: t => if x = v then (x, c + 1) :: t else (x, c) :: bump v t

/-- Each distinct value with how often it occurs. -/
def tally (vs : List Rat) : List (Rat × Nat) := vs.foldl (fun t v => bump v t) []

/-- `a` comes before `b`: higher count first, among equal counts the smaller value first. -/
def before (a b : Rat × Nat) : Bool := decide (b.2 < a.2) || (decide (a.2 = b.2) && decide (a.1 < b.1))

/-- The first entry in that order. -/
def mostFrequent : List (Rat × Nat) → Option (Rat × Nat)
  | [] => none
  | a :: t =>
    match mostFrequent t with
    | none => some a
    | some b => if before b a then some b else some a

/-- θ, the midpoint of the two most frequent values; none when fewer than two distinct values occur. -/
def thresholdOf (vs : List Rat) : Option Rat :=
  match mostFrequent (tally vs) with
  | none => none
  | some a =>
    match mostFrequent ((tally vs).filter fun e => decide (e.1 ≠ a.1)) with
    | none => none
    | some b => some ((a.1 + b.1) / 2)

/-- `ach(0) .. ach(N − 1)` (20_memory.md R41). -/
def analogSamples (s : State) : List Rat := (List.range s.n).filterMap s.ach

/-- `x_i`: the boolean sample, or the thresholded analog sample (R113, R114). -/
def uartLevel (analog : Bool) (s : State) (i : Nat) : Except Fault Bool :=
  if analog then
    if i < s.n then
      match s.ach i with
      | none => .error .unwrittenSample
      | some v =>
        match s.w.theta with
        | none => .ok false
        | some t => .ok (decide (t < v))
    else .error .sampleOutOfRange
  else s.smp 0 i

/-! ## Phase 1: runs and the bit period (R115 to R117) -/

/-- The runs after one more sample, `b` at index `i`. -/
def addSample (b : Bool) (i : Nat) : List Run → List Run
  | [] => [{ level := b, start := i, len := 1 }]
  | [r] => if r.level = b then [{ r with len := r.len + 1 }] else [r, { level := b, start := i, len := 1 }]
  | r :: rs => r :: addSample b i rs

/-- `HIST` over every run of both levels (R117). -/
def histogram (runs : List Run) : List (Nat × Nat) :=
  runs.foldl (fun h r => storeWrite h r.len ((storeRead h r.len).getD 0 + 1)) []

/-- The least run length counted at least twice, if any (R117). -/
def autobaud (hist : List (Nat × Nat)) : Option Nat := (hist.find? fun e => decide (2 ≤ e.2)).map (·.1)

/-- P from BAUD, in lowest terms: SP_DEN / (BAUD · SP_NUM) (R116, 10_state.md R25). -/
def baudPeriod (op : Latched) : Nat × Nat :=
  let num := op.spDen.toNat
  let den := op.baud.toNat * op.spNum.toNat
  (num / Nat.gcd num den, den / Nat.gcd num den)

/-! ## Phase 2: bitstream (R118 to R120) -/

/-- `roundTie(a / b)` (00_scope.md R11). -/
def roundTie (tie : Tie) (a b : Nat) : Nat :=
  let q := a / b
  let r := a % b
  if 2 * r < b then q
  else if b < 2 * r then q + 1
  else
    match tie with
    | .halfEven => if q % 2 = 0 then q else q + 1
    | .halfUp => q + 1

/-- `c_r = roundTie(len_r / P)`, P = pNum / pDen (R118). -/
def copies (tie : Tie) (pNum pDen : Nat) (r : Run) : Nat := roundTie tie (r.len * pDen) pNum

/-- `L = Σ c_r` (R118). -/
def streamLength (tie : Tie) (pNum pDen : Nat) (runs : List Run) : Nat :=
  (runs.map (copies tie pNum pDen)).sum

/-- `BITS` (R118). -/
def streamBits (tie : Tie) (pNum pDen : Nat) (runs : List Run) : List Bool :=
  runs.flatMap fun r => List.replicate (copies tie pNum pDen r) r.level

/-- `BIDX` (R119). -/
def streamIndex (tie : Tie) (pNum pDen : Nat) (runs : List Run) : List Nat :=
  runs.flatMap fun r => (List.range (copies tie pNum pDen r)).map fun u => r.start + u * pNum / pDen

/-- The bit at bitstream position `b` and the sample it starts at, none from L on (R118, R119). -/
def streamEntry (tie : Tie) (pNum pDen : Nat) : List Run → Nat → Option (Bool × Nat)
  | [], _ => none
  | r :: rs, b =>
    if b < copies tie pNum pDen r then some (r.level, r.start + b * pNum / pDen)
    else streamEntry tie pNum pDen rs (b - copies tie pNum pDen r)

/-- `Q`: 1 when the frame has a parity bit (R120). -/
def parityBits (par : Parity) : Nat := if par = .none then 0 else 1

/-- `S` (R113). -/
def stopBits (stop2 : Bool) : Nat := if stop2 then 2 else 1

/-- `F = 1 + D + Q + S` (R120). -/
def frameLength (dbits : BitVec 4) (par : Parity) (stop2 : Bool) : Nat :=
  1 + dbits.toNat + parityBits par + stopBits stop2

/-- A bit of the bitstream; every position read lies below L. -/
def Work.bit (w : Work) (b : Nat) : Bool := w.bits.getD b false

/-- `BIDX[b]`, with `BIDX[L] = N` (R119). -/
def State.bidxAt (s : State) (b : Nat) : Nat := s.w.bidx.getD b s.n

/-- P and BP are written (R113, R116, R117). -/
def State.setPeriod (s : State) (p : Nat × Nat) : State :=
  { s with
    bpNum := BitVec.ofNat 32 p.1
    bpDen := BitVec.ofNat 64 p.2
    w := { s.w with pNum := p.1, pDen := p.2 } }

/-- With P known: a bitstream longer than BITS_CAP ends the operation, any other is built (R113, 60 R140). -/
def uartStream (s : State) : State :=
  if s.cfg.bitsCap.toNat < streamLength s.cfg.uartTie s.w.pNum s.w.pDen s.w.runs then s.finish .bitsOverflow
  else { s with phase := .resample }

/-- The bit period (R113, R116, R117). -/
def uartPeriod (auto : Bool) (s : State) : State :=
  if auto then
    let t := { s with w := { s.w with hist := histogram s.w.runs } }
    match autobaud t.w.hist with
    | none => t.finish .emptyNoPeriod
    | some k => uartStream (t.setPeriod (k, 1))
  else uartStream (s.setPeriod (baudPeriod s.op))

/-- One bit of the bitstream, or its end: UART_BSLEN and F are set, and the search begins unless the bitstream
is shorter than a frame (R113, R118 to R120). -/
def uartResample (dbits : BitVec 4) (par : Parity) (stop2 : Bool) (s : State) : State :=
  match streamEntry s.cfg.uartTie s.w.pNum s.w.pDen s.w.runs s.w.bits.length with
  | some (v, x) => { s with w := { s.w with bits := s.w.bits ++ [v], bidx := s.w.bidx ++ [x] } }
  | none =>
    let t := { s with
      uartBslen := BitVec.ofNat 32 s.w.bits.length
      w := { s.w with frame := frameLength dbits par stop2 } }
    if t.w.bits.length < t.w.frame then t.finish .emptyTooShort
    else { t with phase := .search, w := { t.w with o := 0, best := 0, bestcnt := 0 } }

/-! ## Phase 2: frame search (R121) -/

/-- `cnt(o)`: windows at o, o + F, o + 2F, … whose start bit is 0 and whose last bit is 1 (R121). -/
def matchCount (w : Work) (o : Nat) : Nat :=
  (List.range (w.bits.length / w.frame)).countP fun m =>
    decide (o + (m + 1) * w.frame ≤ w.bits.length) && !w.bit (o + m * w.frame) &&
      w.bit (o + m * w.frame + w.frame - 1)

/-- How many offsets are searched (R121). -/
def searchBound (s : State) : Nat := max 1 (s.w.bits.length / s.cfg.uartSearchDiv)

/-- One offset of the search, or its end: UART_OFFSET and p take the best offset (R113, R121, R123). -/
def uartSearch (s : State) : State :=
  if s.w.o < searchBound s then
    let c := matchCount s.w s.w.o
    if s.w.bestcnt < c then { s with w := { s.w with best := s.w.o, bestcnt := c, o := s.w.o + 1 } }
    else { s with w := { s.w with o := s.w.o + 1 } }
  else { s with uartOffset := BitVec.ofNat 32 s.w.best, phase := .walk, w := { s.w with p := s.w.best } }

/-! ## Phase 2: frame walk (R122 to R126) -/

/-- `ok(p)` (R122). -/
def frameOk (stop2 : Bool) (w : Work) : Bool :=
  !w.bit w.p && w.bit (w.p + w.frame - 1) && (!stop2 || w.bit (w.p + w.frame - 2))

/-- The data bits of the frame at p, first received first. -/
def dataBits (d : Nat) (w : Work) : List Bool := (List.range d).map fun j => w.bit (w.p + 1 + j)

/-- The data value: the first bit received is the least significant (R124). -/
def dataValue : List Bool → Nat
  | [] => 0
  | b :: bs => b.toNat + 2 * dataValue bs

/-- The annotations of the verified frame at p, in order (R126). -/
def frameAnnotations (dbits : BitVec 4) (par : Parity) (stop2 : Bool) (s : State) : List Annotation :=
  let d := dbits.toNat
  let p := s.w.p
  let bs := dataBits d s.w
  let q := s.w.bit (p + 1 + d)
  let colour : Colour := if parityOk par bs q then .data else .error
  [{ label := .uartStart, colour := .event, start := s.bidxAt p, stop := s.bidxAt (p + 1), payload := .none },
   { label := .data, colour := colour, start := s.bidxAt (p + 1), stop := s.bidxAt (p + 1 + d),
     payload := .int (BitVec.ofNat 32 (dataValue bs)) d }] ++
  (if par = .none then [] else
    [{ label := .uartParity, colour := colour, start := s.bidxAt (p + 1 + d), stop := s.bidxAt (p + 2 + d),
       payload := .int (BitVec.ofNat 32 q.toNat) 1 }]) ++
  [{ label := .uartStop, colour := .event, start := s.bidxAt (p + s.w.frame - stopBits stop2),
     stop := s.bidxAt (p + s.w.frame), payload := .none }]

/-- One position of the walk, or the end of the operation (R123). -/
def uartWalk (dbits : BitVec 4) (par : Parity) (stop2 : Bool) (s : State) : State :=
  if s.w.p + s.w.frame ≤ s.w.bits.length then
    if frameOk stop2 s.w then
      State.emitAll (frameAnnotations dbits par stop2 s) s
        fun t => { t with w := { t.w with p := t.w.p + t.w.frame } }
    else { s with w := { s.w with p := s.w.p + 1 } }
  else s.finish .ok

/-! ## The operation -/

/-- The run scanner starts at sample 0 (R115); θ is found before the scan (R113, R114). -/
def uartEnter (analog : Bool) (s : State) : State :=
  { s with w := { s.w with i := 0, theta := if analog then thresholdOf (analogSamples s) else none } }

/-- One micro-step of UART (R113): RX is CH0 or ACH0. -/
def uartMove (dbits : BitVec 4) (par : Parity) (stop2 auto analog : Bool) (s : State) :
    Host.Outcome State Fault Refusal :=
  match s.phase with
  | .start => startMove (.uart dbits par stop2 auto analog) (uartEnter analog) s
  | .period => .next (uartPeriod auto s)
  | .resample => .next (uartResample dbits par stop2 s)
  | .search => .next (uartSearch s)
  | .walk => .next (uartWalk dbits par stop2 s)
  | .idle | .scan | .widen | .bitEdges | .words =>
    scanMove (fun s => do
      let x ← uartLevel analog s s.w.i
      return { s with w := { s.w with runs := addSample x s.w.i s.w.runs } })
      (fun s => { s with phase := .period }) s

/-- UART (R113). -/
def execUart (dbits : BitVec 4) (par : Parity) (stop2 auto analog : Bool) (s : State) :
    Host.Outcome State Fault Refusal :=
  runOperation (uartMove dbits par stop2 auto analog) s

end Sys2Proof.Machine
end

