-- ==== Sys2Proof/Machine/Dispatch.lean ====
section
/-! DEFINITION. One arm per operation of opcode_table.json. -/

namespace Sys2Proof.Machine

def exec (i : Instr) (s : State) : Host.Outcome State Fault Refusal :=
  match i with
  | .edges filt slot => Sys2Proof.Machine.execEdges filt slot s
  | .onewire => Sys2Proof.Machine.execOnewire s
  | .spi3 rwpos => Sys2Proof.Machine.execSpi3 rwpos s
  | .spi4 cpol cpha => Sys2Proof.Machine.execSpi4 cpol cpha s
  | .i2c => Sys2Proof.Machine.execI2c s
  | .sync cpha => Sys2Proof.Machine.execSync cpha s
  | .i2s bpw delay order bedge => Sys2Proof.Machine.execI2s bpw delay order bedge s
  | .uart dbits par stop2 auto analog => Sys2Proof.Machine.execUart dbits par stop2 auto analog s

end Sys2Proof.Machine
end

