-- ==== Sys2Proof/Machine/HostPort.lean ====
section
/-! DEFINITION. The host's actions on the block: registers, sample slots, OUT, hardware reset (10_state.md R18 to R25, 20_memory.md
R40 to R45, 70_reset_and_hazards.md R150 to R158). -/

namespace Sys2Proof.Machine

/-- Draw one free value. -/
def State.draw (s : State) : State := { s with free := s.free + 1 }

/-- The value of the register at an offset; a reserved offset reads 0 (10_state.md R18). -/
def State.regValue (s : State) (off : BitVec 8) : Word :=
  match off.toNat with
  | 0x00 => s.cmd
  | 0x04 => s.len
  | 0x08 => s.spNum
  | 0x0C => s.spDen
  | 0x10 => s.baud
  | 0x14 => s.status.word
  | 0x18 => s.outCount
  | 0x1C => s.bpNum
  | 0x20 => s.bpDen.extractLsb' 0 32
  | 0x24 => s.bpDen.extractLsb' 32 32
  | 0x28 => s.uartOffset
  | 0x2C => s.uartBslen
  | _ => 0

/-- A register read that answers any value: while BUSY = 1, OUT_COUNT (10_state.md R24) and, once the host has
written a slot during the operation, the UART diagnostic registers (93 I3). -/
def State.readsAnyValue (s : State) (off : BitVec 8) : Bool :=
  s.status.busy && (decide (off = 0x18#8) || (s.tainted && decide (0x1C ≤ off.toNat ∧ off.toNat ≤ 0x2C)))

/-- A register read (70 R155). -/
def State.regRead (s : State) (off : BitVec 8) : State :=
  if s.readsAnyValue off then { s.draw with hostData := Config.freeWord s.free }
  else { s with hostData := s.regValue off }

/-- A register write (70 R155): ignored while BUSY = 1, no effect on a read-only or reserved offset; at CMD it
starts an operation (10_state.md R19 to R25, 60 R136). -/
def State.regWrite (s : State) (off : BitVec 8) (v : Word) : State :=
  if s.status.busy then s
  else
    match off.toNat with
    | 0x00 => s.startCommand v
    | 0x04 => { s with len := v }
    | 0x08 => { s with spNum := v }
    | 0x0C => { s with spDen := v }
    | 0x10 => { s with baud := v }
    | _ => s

/-- The register offset at a host address, none outside the 256 bytes from PEX_BASE (00_scope.md R8, 20_memory.md
R40). -/
def State.regOffset (s : State) (addr : Nat) : Option (BitVec 8) :=
  if s.cfg.pexBase ≤ addr ∧ addr < s.cfg.pexBase + 0x100 then some (BitVec.ofNat 8 (addr - s.cfg.pexBase)) else none

/-- A naturally aligned 32-bit access (20_memory.md R45). -/
def regAccessOk (off : BitVec 8) (acc : Access) : Bool :=
  match acc with
  | .word => decide (off.toNat % 4 = 0)
  | .byte | .half => false

/-- A host write to a sample slot or ACH0 while BUSY = 1 spoils the running operation (20_memory.md R55, 93 I3). -/
def State.taintIfBusy (s : State) : State := { s with tainted := s.tainted || s.status.busy }

/-- Byte `off` of slot `k` takes `b` (20_memory.md R43). -/
def State.setSlotByte (s : State) (k : BitVec 2) (off : Nat) (b : Byte) : State :=
  match k.toNat with
  | 0 => { s with ch0 := storeWrite s.ch0 off b }
  | 1 => { s with ch1 := storeWrite s.ch1 off b }
  | 2 => { s with ch2 := storeWrite s.ch2 off b }
  | _ => { s with ch3 := storeWrite s.ch3 off b }

/-- The host writes byte `off` of slot `k` (20_memory.md R43, R45): samples 0 to 2^32 − 1 exist (00_scope.md R8). -/
def State.chWrite (s : State) (k : BitVec 2) (off : Nat) (b : Byte) : Host.Outcome State Fault Refusal :=
  if off < 2 ^ 29 then .next (s.taintIfBusy.setSlotByte k off b) else .fault .noSuchSample

/-- The host writes byte `off` of ACH0 (20_memory.md R40, R45): elements 0 to 2^32 − 1 exist (00_scope.md R8). -/
def State.analogWrite (s : State) (off : Nat) (b : Byte) : Host.Outcome State Fault Refusal :=
  if off < 2 ^ 32 * s.cfg.analogFormat.bytes then .next { s.taintIfBusy with ach0 := storeWrite s.ach0 off b }
  else .fault .noSuchSample

/-- Bytes of OUT per count of OUT_COUNT: 4 after EDGES (OP = 0), 16 after every other operation
(20_memory.md R49, 93 I5; log entry 20). -/
def State.outUnit (s : State) : Nat := if s.cmd.extractLsb' 0 4 = 0 then 4 else 16

/-- How many bytes a host access moves. -/
def Access.bytes : Access → Nat
  | .byte => 1
  | .half => 2
  | .word => 4

/-- The low `acc.bytes` bytes of a word, the rest 0. -/
def lowBytes (acc : Access) (v : Word) : Word := BitVec.ofNat 32 (v.toNat % 256 ^ acc.bytes)

/-- The host reads OUT from byte `addr` on (70 R155, R151): a fault before the first operation since reset has finished and at or
above OUT_COUNT, any value while BUSY = 1, otherwise the bytes the last operation wrote. -/
def State.outRead (s : State) (addr : Nat) (acc : Access) : Host.Outcome State Fault Refusal :=
  if s.finishedOnce = true ∧ addr + acc.bytes ≤ s.outUnit * s.outCount.toNat then
    if s.status.busy then .next { s.draw with hostData := lowBytes acc (Config.freeWord s.free) }
    else
      match bytesAt s.out acc.bytes addr with
      | some v => .next { s with hostData := BitVec.ofNat 32 v }
      | none => .fault .outNotValid
  else .fault .outNotValid

/-- Hardware reset (70 R150): every register takes its reset value, a running operation is abandoned, the
memories hold nothing readable (R151). The parameters and the host's side stay (log entry 22). -/
def State.hwReset (s : State) : State :=
  { State.reset with
    cfg := s.cfg
    script := s.script
    hostData := s.hostData
    free := s.free }

/-- A register access at a host address: outside the block or not an aligned word it is refused (20_memory.md R45,
93 I2). -/
def State.regAct (s : State) (addr : Nat) (acc : Access) (act : BitVec 8 → State) :
    Host.Outcome State Fault Refusal :=
  match s.regOffset addr with
  | none => .refused .outsideBlock
  | some off => if regAccessOk off acc then .next (act off) else .refused .regAccess

/-- The base of slot `k` on the host bus (20_memory.md R50). -/
def State.chBase (s : State) (k : BitVec 2) : Nat :=
  match k.toNat with
  | 0 => s.cfg.ch0Base
  | 1 => s.cfg.ch1Base
  | 2 => s.cfg.ch2Base
  | _ => s.cfg.ch3Base

/-- A host access to the memory whose base is `base`, by its byte number (20_memory.md R50); below the base the memory
has no byte. -/
def memAct (base addr : Nat) (act : Nat → Host.Outcome State Fault Refusal) : Host.Outcome State Fault Refusal :=
  if base ≤ addr then act (addr - base) else .refused .outsideBlock

/-- One host action. -/
def hostAct (a : HostAction) (s : State) : Host.Outcome State Fault Refusal :=
  match a with
  | .regWrite addr acc v => s.regAct addr acc fun off => s.regWrite off v
  | .regRead addr acc => s.regAct addr acc s.regRead
  | .chWrite k addr b => memAct (s.chBase k) addr fun off => s.chWrite k off b
  | .analogWrite addr b => memAct s.cfg.ach0Base addr fun off => s.analogWrite off b
  | .outRead addr acc => memAct s.cfg.outBase addr fun off => s.outRead off acc
  | .hwReset => .next s.hwReset

end Sys2Proof.Machine
end

