-- ==== Sys2Proof/Machine/Move.lean ====
section
/-! DEFINITION. One micro-step of any operation: what the block does between two host actions (00_scope.md R6, 20_memory.md R46). -/

namespace Sys2Proof.Machine

/-- One micro-step of operation `i` (00_scope.md R6). -/
def move (i : Instr) (s : State) : Host.Outcome State Fault Refusal :=
  match i with
  | .edges filt slot => edgesMove filt slot s
  | .onewire => onewireMove s
  | .spi3 rwpos => spi3Move rwpos s
  | .spi4 cpol cpha => spi4Move cpol cpha s
  | .i2c => i2cMove s
  | .sync cpha => syncMove cpha s
  | .i2s bpw delay order bedge => i2sMove bpw delay order bedge s
  | .uart dbits par stop2 auto analog => uartMove dbits par stop2 auto analog s

end Sys2Proof.Machine
end

