-- ==== Sys2Proof/Machine/Fetch.lean ====
section
/-! DEFINITION. What one step does: a host action, one micro-step of the running operation, or the running operation to its end.
The command word is fetched from CMD (10_state.md R19, 60_exceptions.md R136). -/

namespace Sys2Proof.Machine

/-- The block runs the operation CMD holds to its end, if it is busy; an idle block does nothing (60 R138,
R149). A word that is no instruction is refused with CONFIG_ERROR (60 R137). -/
def blockRun (s : State) : Host.Outcome State Fault Refusal :=
  if s.status.busy then
    match decode s.cmd with
    | .ok i => exec i s
    | .error _ => .next s.clearOutputs.refuse
  else .next s

/-- The block takes one micro-step of the operation CMD holds, if it is busy. -/
def blockTick (s : State) : Host.Outcome State Fault Refusal :=
  if s.status.busy then
    match decode s.cmd with
    | .ok i => move i s
    | .error _ => .next s.clearOutputs.refuse
  else .next s

/-- The host polls STATUS until DONE = 1, `t` being the state with the wait over: only the end of an operation
ends it (70 R153, R155), so an idle block with DONE = 0 keeps the host waiting. -/
def waitStep (s t : State) : Host.Outcome State Fault Refusal :=
  if s.status.busy || s.status.done then blockRun t else .next s

/-- The next event of the script; with none left the host only waits (log entry 2). -/
def stepOnce (s : State) : Host.Outcome State Fault Refusal :=
  match s.script with
  | [] => blockRun s
  | .host a :: es => hostAct a { s with script := es }
  | .tick :: es => blockTick { s with script := es }
  | .waitDone :: es => waitStep s { s with script := es }

/-- 1 where a register still holds 0, so that the operation is not refused for want of set-up (70 R153
steps 3 and 4; log entry 8). -/
def atLeastOne (v : Word) : Word := if v = 0 then 1 else v

/-- The host has written SP_NUM, SP_DEN and BAUD where they were 0, and then the command word (log entry 8). -/
def fetchWord (s : State) (nbits w : Nat) : State :=
  { s with
    spNum := atLeastOne s.spNum
    spDen := atLeastOne s.spDen
    baud := atLeastOne s.baud
    script := [] }.startCommand (tableWord nbits w)

end Sys2Proof.Machine
end

