-- ==== Sys2Proof/Machine/Step.lean ====
section
/-! DEFINITION. One step of the machine, and the placing of a command word where the next step runs it. -/

namespace Sys2Proof.Machine

/-- One step: see `stepOnce`. -/
def step (s : State) : Host.Outcome State Fault Refusal := stepOnce s

/-- `s` with the command word started, so that the next step runs it (log entry 8). -/
def State.withFetchWord (s : State) (nbits w : Nat) : State := fetchWord s nbits w

end Sys2Proof.Machine
end

