-- ==== Sys2Proof/Safety.lean ====
section
/-! DEFINITION. What counts as a safe run, in the terms the statements use: when an operation may start, what a scanning operation
looks like, and the invariant every step keeps. -/

namespace Sys2Proof.Machine

/-- An operation is started and its first micro-step is to come (60 R136). -/
abbrev State.Started (s : State) : Prop := s.status.busy = true ∧ s.phase = .start

/-- A started operation `i` that executes: legal command and operands (30_encoding.md R66), samples 0 to N−1
of its slots written (70 R151). -/
abbrev State.Ready (i : Instr) (s : State) : Prop :=
  s.Started ∧ legal i s = true ∧ samplesWritten i s = true

/-- The running operation scans, and an index is left (10_state.md R17). -/
abbrev State.Scanning (s : State) : Prop := s.status.busy = true ∧ s.phase = .scan ∧ s.w.i < s.n

/-- OUT has room for one more record (20_memory.md R47). -/
abbrev State.Room (s : State) : Prop := s.outCount.toNat < s.cfg.outCap.toNat

/-- The next state of a step that emits `a` and leaves the working registers at `w`: with room, record `a` written and
counted; with OUT full, nothing written and the operation ended with OUT_OVERFLOW (20_memory.md R47, 60 R139). -/
def State.emitThen (s : State) (a : Annotation) (w : Work) : State :=
  if s.outCount.toNat < s.cfg.outCap.toNat then { s.pushRecord a with w := w } else s.finish .outOverflow

/-- The slot of which every sample 0 to N−1 has level `b`. -/
abbrev State.Constant (s : State) (k : BitVec 2) (b : Bool) : Prop :=
  ∀ i, i < s.n → s.smp k i = .ok b

/-- One record of OUT as its fields: label code, colour code, span, KIND, WIDTH and VALUE (30_encoding.md R68). -/
structure RecordView where
  label : Byte
  colour : BitVec 4
  start : Nat
  stop : Nat
  kind : BitVec 4
  width : BitVec 6
  value : Word
deriving DecidableEq, Repr

/-- Record number `n` of OUT (30_encoding.md R68). -/
def recordAt (m : Mem) (n : Nat) : RecordView :=
  let tag := wordAt m (16 * n + 8)
  { label := tag.extractLsb' 8 8
    colour := tag.extractLsb' 0 4
    start := (wordAt m (16 * n)).toNat
    stop := (wordAt m (16 * n + 4)).toNat
    kind := tag.extractLsb' 4 4
    width := tag.extractLsb' 16 6
    value := wordAt m (16 * n + 12) }

/-- What `recordAt` shows of an annotation that was emitted (30_encoding.md R68). -/
def Annotation.view (a : Annotation) : RecordView :=
  { label := a.label.code
    colour := a.colour.code
    start := a.start % 2 ^ 32
    stop := a.stop % 2 ^ 32
    kind := a.payload.kind
    width := a.payload.width
    value := a.payload.value }

/-- Records 0 to n − 1 are in order: START ≤ END in each, START non-decreasing (20_memory.md R47). -/
abbrev Ordered (m : Mem) (n : Nat) : Prop :=
  (∀ k, k < n → recStart m k ≤ recStop m k) ∧
  (∀ k, k + 1 < n → recStart m k ≤ recStart m (k + 1))

/-- Bytes of OUT per count of OUT_COUNT for operation `i` (20_memory.md R49, 30_encoding.md R68). -/
def unitOf : Instr → Nat
  | .edges _ _ => 4
  | .onewire | .spi3 _ | .spi4 _ _ | .i2c | .sync _ | .i2s _ _ _ _ | .uart _ _ _ _ _ => 16

/-- The most counts of OUT_COUNT operation `i` may reach (20_memory.md R47, R49). -/
def capacityOf (i : Instr) (s : State) : Nat :=
  match i with
  | .edges _ _ => 4 * s.cfg.outCap.toNat
  | .onewire | .spi3 _ | .spi4 _ _ | .i2c | .sync _ | .i2s _ _ _ _ | .uart _ _ _ _ _ => s.cfg.outCap.toNat

/-- A clocked decoder or EDGES: every operation but UART. -/
def clocked : Instr → Bool
  | .edges _ _ | .onewire | .spi3 _ | .spi4 _ _ | .i2c | .sync _ | .i2s _ _ _ _ => true
  | .uart _ _ _ _ _ => false

/-- The operations that run the post-pass (47_postprocess.md R128). -/
def widens : Instr → Bool
  | .spi3 _ | .spi4 _ _ | .i2c => true
  | .edges _ _ | .onewire | .sync _ | .i2s _ _ _ _ | .uart _ _ _ _ _ => false

/-- `RUNS_OF(x)`: the run scanner over a whole sample list (46_uart.md R115). -/
def runsOf (xs : List Bool) : List Run := xs.zipIdx.foldl (fun rs x => addSample x.1 x.2 rs) []

/-- The runs lie one after another from sample `a` on (46_uart.md R115). -/
def Contiguous : Nat → List Run → Prop
  | _, [] => True
  | a, r :: rs => r.start = a ∧ 1 ≤ r.len ∧ Contiguous (a + r.len) rs

/-- Adjacent runs have different levels (46_uart.md R115). -/
def Alternating (rs : List Run) : Prop := List.IsChain (fun a b : Run => a.level ≠ b.level) rs

/-- The memories keep their canonical form. -/
abbrev State.MemoriesWf (s : State) : Prop :=
  s.ch0.wf = true ∧ s.ch1.wf = true ∧ s.ch2.wf = true ∧ s.ch3.wf = true ∧ s.out.wf = true ∧
    s.ach0.wf = true

/-- BUSY and DONE never hold together, BUSY says that an operation stands at a position of its rule, RESULT is
one of the codes the block produces (10_state.md R23, 93 I9), DONE only once some operation has finished. -/
abbrev State.StatusOk (s : State) : Prop :=
  ¬(s.status.busy = true ∧ s.status.done = true) ∧ (s.status.busy = true ↔ s.phase ≠ .idle) ∧
    s.status.result.toNat ≤ 5 ∧ (s.status.done = true → s.finishedOnce = true)

/-- The latched operands are those of the registers while the operation runs (60 R136); idle, the working
registers are discarded (60 R138) and nothing is spoiled (93 I3). -/
abbrev State.LatchOk (s : State) : Prop :=
  (s.status.busy = true → s.op = { n := s.len, spNum := s.spNum, spDen := s.spDen, baud := s.baud }) ∧
    (s.status.busy = false → s.w = Work.initial ∧ s.tainted = false)

/-- The counters stay in their range between micro-steps: at most 7 bits wait in `cnt`, `left` is at most 8
(10_state.md R35). -/
abbrev State.CountersOk (s : State) : Prop := s.w.cnt ≤ 7 ∧ s.w.left ≤ 8

/-- The invariant every step keeps. -/
abbrev State.Inv (s : State) : Prop := s.MemoriesWf ∧ s.StatusOk ∧ s.LatchOk ∧ s.CountersOk

end Sys2Proof.Machine
end

