-- ==== Sys2Proof/Certificates/Slice0/Obligations.lean ====
section
/-! DEFINITION. The statements for the provers. -/

open Sys2Proof Sys2Proof.Machine

/-! ## Encoding (30_encoding.md) -/

/-- Decoding an encoded instruction gives it back, from the word and from its four bytes (R56 to R65). Reserved
field codes are included: that they decode to an instruction that is not well-formed is the model's choice (log
entry 17). -/
def Obligations.DecodeOfEncode : Prop :=
  ∀ i : Instr, decode (encode i) = .ok i ∧ decodeBytes (bytesOfWord (encode i)) = .ok (i, [])

/-- Encoding a decoded instruction gives the word back: no two words decode to one instruction (R56 to R65). That a
reserved field code decodes at all is the model's choice (log entry 17). -/
def Obligations.EncodeOfDecode : Prop :=
  ∀ (w : Word) (i : Instr), decode w = .ok i → encode i = w

/-- Exactly the words R58 to R65 call legal decode to a well-formed instruction (R66). -/
def Obligations.LegalWordsAreTheTablesWords : Prop :=
  ∀ w : Word, (∃ i : Instr, decode w = .ok i ∧ i.wf = true) ↔
    (w.toNat % 16 = 0 ∧ w.toNat / 16 % 4 ≠ 3 ∧ w.toNat / 256 = 0) ∨
    w.toNat = 1 ∨
    (w.toNat % 16 = 2 ∧ w.toNat / 128 = 0) ∨
    (w.toNat % 16 = 3 ∧ w.toNat / 64 = 0) ∨
    w.toNat = 4 ∨
    (w.toNat % 16 = 5 ∧ w.toNat / 16 % 2 = 0 ∧ w.toNat / 64 = 0) ∨
    (w.toNat % 16 = 6 ∧ 1 ≤ w.toNat / 16 % 64 ∧ w.toNat / 16 % 64 ≤ 32 ∧ w.toNat / 65536 = 0) ∨
    (w.toNat % 16 = 7 ∧ 5 ≤ w.toNat / 16 % 16 ∧ w.toNat / 16 % 16 ≤ 9 ∧ w.toNat / 256 % 8 ≤ 4 ∧
      w.toNat / 16384 = 0)

/-- The command word of every instruction, by arithmetic: each field at its bits with its codes, OP below, every
other bit 0 (R56 to R65; that the reserved codes of FILT and PAR are instructions is log entry 17); and a word of each
operation, written out from its field table, with one of each kind of refusal (R66). -/
def Obligations.CommandWordFields : Prop :=
  (∀ (filt : Filter) (slot : BitVec 2), (encode (.edges filt slot)).toNat =
    0 + 2 ^ 4 * (match filt with
      | .any => 0
      | .rising => 1
      | .falling => 2
      | .reserved => 3) + 2 ^ 6 * slot.toNat) ∧
  (encode .onewire).toNat = 1 ∧
  (∀ rwpos : BitVec 3, (encode (.spi3 rwpos)).toNat = 2 + 2 ^ 4 * rwpos.toNat) ∧
  (∀ (cpol : Bool) (cpha : ClockEdge), (encode (.spi4 cpol cpha)).toNat =
    3 + 2 ^ 4 * cpol.toNat + 2 ^ 5 * (match cpha with
      | .rising => 0
      | .falling => 1)) ∧
  (encode .i2c).toNat = 4 ∧
  (∀ cpha : ClockEdge, (encode (.sync cpha)).toNat =
    5 + 2 ^ 5 * (match cpha with
      | .rising => 0
      | .falling => 1)) ∧
  (∀ (bpw : BitVec 6) (delay : BitVec 4) (order : BitOrder) (bedge : ClockEdge),
    (encode (.i2s bpw delay order bedge)).toNat =
      6 + 2 ^ 4 * bpw.toNat + 2 ^ 10 * delay.toNat + 2 ^ 14 * (match order with
        | .msb => 0
        | .lsb => 1) + 2 ^ 15 * (match bedge with
        | .rising => 0
        | .falling => 1)) ∧
  (∀ (d : BitVec 4) (par : Parity) (stop2 auto analog : Bool), (encode (.uart d par stop2 auto analog)).toNat =
    7 + 2 ^ 4 * d.toNat + 2 ^ 8 * (match par with
      | .none => 0
      | .odd => 1
      | .even => 2
      | .mark => 3
      | .space => 4
      | .reserved5 => 5
      | .reserved6 => 6
      | .reserved7 => 7) + 2 ^ 11 * stop2.toNat + 2 ^ 12 * auto.toNat + 2 ^ 13 * analog.toNat) ∧
  decode 0x00000050#32 = .ok (.edges .rising 1) ∧ decode 0x00000001#32 = .ok .onewire ∧
  decode 0x00000072#32 = .ok (.spi3 7) ∧ decode 0x00000023#32 = .ok (.spi4 false .falling) ∧
  decode 0x00000004#32 = .ok .i2c ∧ decode 0x00000025#32 = .ok (.sync .falling) ∧
  decode 0x00008456#32 = .ok (.i2s 5 1 .msb .falling) ∧
  decode 0x00001087#32 = .ok (.uart 8 .none false true false) ∧
  decode 0x00000008#32 = .error (.reservedOp 8) ∧ decode 0x00000015#32 = .error (.mustBeZero 5)

/-! ## The step -/

/-- With no event left to come a step of a busy block is `exec` of the operation CMD holds, and an idle block keeps
everything (R136, R138, R149). The rest is the model's choice, not the spec's: the script of events (log entry 2),
by which a host event is that host action, a tick one micro-step, and the host's wait for DONE the operation to its
end, over at once when DONE = 1 and never over on an idle block with DONE = 0; and `withFetchWord` (log entry 8),
which places a word where the next step runs it. -/
def Obligations.StepRunsTheCommand : Prop :=
  ∀ s : State,
    (∀ i, s.script = [] → s.status.busy = true → decode s.cmd = .ok i → step s = exec i s) ∧
    (∀ i es, s.script = .waitDone :: es → s.status.busy = true → decode s.cmd = .ok i →
      step s = exec i { s with script := es }) ∧
    (∀ es, s.script = .waitDone :: es → s.status.busy = false → s.status.done = true →
      step s = .next { s with script := es }) ∧
    (∀ es, s.script = .waitDone :: es → s.status.busy = false → s.status.done = false → step s = .next s) ∧
    (∀ i es, s.script = .tick :: es → s.status.busy = true → decode s.cmd = .ok i →
      step s = move i { s with script := es }) ∧
    (∀ a es, s.script = .host a :: es → step s = hostAct a { s with script := es }) ∧
    (s.script = [] → s.status.busy = false → step s = .next s) ∧
    (∀ i nbits w, decode (BitVec.ofNat 32 (w % 2 ^ nbits)) = .ok i →
      step (s.withFetchWord nbits w) = exec i (s.withFetchWord nbits w))

/-- Running an operation to its end is taking its micro-steps one by one: some number of ticks, at most the
bound, reaches the very state `exec` answers (R6, R52). The tick and the bound are the model's (log entries 2, 3). -/
def Obligations.RunIsItsMicroSteps : Prop :=
  ∀ (i : Instr) (s : State), decode s.cmd = .ok i → s.Ready i →
    ∃ n, n ≤ s.stepBound ∧
      Host.Core.run Sys2Proof.core n { s with script := List.replicate n .tick } = exec i { s with script := [] }

/-! ## Reset and registers (10_state.md, 70_reset_and_hazards.md) -/

/-- After reset every register reads its reset value, every reserved offset 0 in any state (R18, R150), and the
parameters R8 fixes have its values; the open ones are log entry 1 and stand in no statement. -/
def Obligations.ResetRegisterValues : Prop :=
  State.reset.regValue 0x00 = 0 ∧ State.reset.regValue 0x04 = 0 ∧ State.reset.regValue 0x08 = 0 ∧
  State.reset.regValue 0x0C = 1 ∧ State.reset.regValue 0x10 = 0 ∧ State.reset.regValue 0x14 = 0 ∧
  State.reset.regValue 0x18 = 0 ∧ State.reset.regValue 0x1C = 0 ∧ State.reset.regValue 0x20 = 1 ∧
  State.reset.regValue 0x24 = 0 ∧ State.reset.regValue 0x28 = 0 ∧ State.reset.regValue 0x2C = 0 ∧
  (∀ (s : State) (off : BitVec 8), 0x30 ≤ off.toNat → s.regValue off = 0) ∧
  State.reset.cfg.owRstlMin = 480 ∧ State.reset.cfg.owPdhMin = 15 ∧ State.reset.cfg.owPdhMax = 60 ∧
  State.reset.cfg.owPdlMin = 60 ∧ State.reset.cfg.owPdlMax = 240 ∧ State.reset.cfg.owOne = 15 ∧
  State.reset.cfg.owSlot = 60 ∧ State.reset.cfg.owWdSlots = 100 ∧ State.reset.cfg.uartTie = .halfEven ∧
  State.reset.cfg.uartSearchDiv = 4

/-- Hardware reset in any state, running or idle: every register takes its reset value, the operation is
abandoned, no sample and no byte of OUT is readable, the parameters stay (R150, R151). That the contents the spec
calls unspecified are not readable is the model's reading (log entries 6, 22). -/
def Obligations.HardwareResetAbandons : Prop :=
  ∀ s : State, ∃ t : State, hostAct .hwReset s = .next t ∧
    t.cmd = 0 ∧ t.len = 0 ∧ t.spNum = 0 ∧ t.spDen = 1 ∧ t.baud = 0 ∧
    t.status = { busy := false, done := false, result := 0 } ∧ t.outCount = 0 ∧
    t.bpNum = 0 ∧ t.bpDen = 1 ∧ t.uartOffset = 0 ∧ t.uartBslen = 0 ∧
    (∀ k i, sampleIn (t.chan k) i = none) ∧ (∀ a, storeRead t.ach0 a = none) ∧
    (∀ a, storeRead t.out a = none) ∧
    (∀ addr acc, hostAct (.outRead (t.cfg.outBase + addr) acc) t = .fault .outNotValid) ∧ t.cfg = s.cfg

/-- A parameter register written while the block is idle reads back what was written, and the write changes
nothing else; while BUSY = 1 a register write changes no state at all; a write to a read-only or reserved offset
changes none at any time (R19 to R25, R156). Registers stand at PEX_BASE plus their offset (R8). -/
def Obligations.RegisterWrites : Prop :=
  ∀ (s : State) (v : Word),
    (s.status.busy = false →
      hostAct (.regWrite (s.cfg.pexBase + 0x04) .word v) s = .next { s with len := v } ∧
      hostAct (.regWrite (s.cfg.pexBase + 0x08) .word v) s = .next { s with spNum := v } ∧
      hostAct (.regWrite (s.cfg.pexBase + 0x0C) .word v) s = .next { s with spDen := v } ∧
      hostAct (.regWrite (s.cfg.pexBase + 0x10) .word v) s = .next { s with baud := v } ∧
      ({ s with len := v }).regValue 0x04 = v ∧ ({ s with spNum := v }).regValue 0x08 = v ∧
      ({ s with spDen := v }).regValue 0x0C = v ∧ ({ s with baud := v }).regValue 0x10 = v) ∧
    (∀ off : BitVec 8, off.toNat % 4 = 0 → (s.status.busy = true ∨ 0x14 ≤ off.toNat) →
      hostAct (.regWrite (s.cfg.pexBase + off.toNat) .word v) s = .next s)

/-- A register read gives the register's value and changes nothing else; while BUSY = 1, OUT_COUNT, and in a
spoiled operation the diagnostic registers too, read as any value (R18, R24, R155). The registers stand at the offsets
of the map, BP_DEN in two halves (R18, R25). The free value and the field the read lands in are the model's (log
entries 4, 5 and 10). -/
def Obligations.RegisterReads : Prop :=
  ∀ (s : State) (off : BitVec 8), off.toNat % 4 = 0 →
    (s.status.busy = false ∨ (off ≠ 0x18 ∧ (s.tainted = false ∨ off.toNat < 0x1C ∨ 0x2C < off.toNat)) →
      hostAct (.regRead (s.cfg.pexBase + off.toNat) .word) s = .next { s with hostData := s.regValue off }) ∧
    (s.status.busy = true → off = 0x18 ∨ (s.tainted = true ∧ 0x1C ≤ off.toNat ∧ off.toNat ≤ 0x2C) →
      ∃ v, hostAct (.regRead (s.cfg.pexBase + off.toNat) .word) s =
        .next { s with hostData := v, free := s.free + 1 }) ∧
    (s.regValue 0x00 = s.cmd ∧ s.regValue 0x04 = s.len ∧ s.regValue 0x08 = s.spNum ∧ s.regValue 0x0C = s.spDen ∧
      s.regValue 0x10 = s.baud ∧ s.regValue 0x18 = s.outCount ∧ s.regValue 0x1C = s.bpNum ∧
      (s.regValue 0x20).toNat = s.bpDen.toNat % 2 ^ 32 ∧ (s.regValue 0x24).toNat = s.bpDen.toNat / 2 ^ 32 ∧
      s.regValue 0x28 = s.uartOffset ∧ s.regValue 0x2C = s.uartBslen)

/-- STATUS as the host reads it: BUSY is bit 0, DONE bit 1, RESULT bits 4:2, every other bit 0 (R23). -/
def Obligations.StatusWordFields : Prop :=
  ∀ s : State,
    (s.regValue 0x14).toNat =
      s.status.busy.toNat + 2 * s.status.done.toNat + 4 * s.status.result.toNat

/-- A CMD write while BUSY = 0 stores the word, latches the operands, raises BUSY and clears OUT_COUNT and the
diagnostic registers; no memory changes (R19, R136). That the legality check is not part of this write but the next
micro-step is the model's reading of R136 (log entry 16). -/
def Obligations.CommandWriteStarts : Prop :=
  ∀ (s : State) (c : Word), s.status.busy = false →
    hostAct (.regWrite (s.cfg.pexBase + 0x00) .word c) s = .next { s with
      cmd := c
      op := { n := s.len, spNum := s.spNum, spDen := s.spDen, baud := s.baud }
      status := { busy := true, done := false, result := 0 }
      outCount := 0
      bpNum := 0
      bpDen := 1
      uartOffset := 0
      uartBslen := 0
      phase := .start
      tainted := false }

/-- A register access that is not a naturally aligned 32-bit access is refused (R45). A host address outside the 256
bytes from PEX_BASE reaches no register of the block and is refused by another name (R8, R18, R40; that name is the
model's, log entry 12). -/
def Obligations.MisalignedRegisterAccess : Prop :=
  ∀ (s : State) (acc : Access) (v : Word),
    (∀ off : BitVec 8, acc ≠ .word ∨ off.toNat % 4 ≠ 0 →
      hostAct (.regWrite (s.cfg.pexBase + off.toNat) acc v) s = .refused .regAccess ∧
      hostAct (.regRead (s.cfg.pexBase + off.toNat) acc) s = .refused .regAccess) ∧
    (∀ addr, addr < s.cfg.pexBase ∨ s.cfg.pexBase + 0x100 ≤ addr →
      hostAct (.regWrite addr acc v) s = .refused .outsideBlock ∧
      hostAct (.regRead addr acc) s = .refused .outsideBlock)

/-! ## Memories (20_memory.md) -/

/-- Writing byte `off` of slot k, at the slot's base plus `off`, sets samples 8·off to 8·off + 7 of that slot, bit j
giving sample 8·off + j; no other sample, no other memory and no register changes. Writing a byte of ACH0 sets that
byte and no other; an element whose bytes hold v, little-endian, reads as the low bits of v in the width and signedness
of ANALOG_FORMAT (R40, R43, R44, R50, R114, 93 I17). That a write while BUSY = 1 lands and spoils the operation, where
R155 makes not writing then a duty (log entry 10), the byte layout of ACH0 and the fault past the last sample (log
entry 7), and the refusal below a base (log entry 12) are the model's choices. -/
def Obligations.SlotWriteSetsEightSamples : Prop :=
  ∀ s : State,
    (s.chBase 0 = s.cfg.ch0Base ∧ s.chBase 1 = s.cfg.ch1Base ∧ s.chBase 2 = s.cfg.ch2Base ∧
      s.chBase 3 = s.cfg.ch3Base) ∧
    (∀ (k : BitVec 2) (off : Nat) (b : Byte), off < 2 ^ 29 → ∃ t : State,
      hostAct (.chWrite k (s.chBase k + off) b) s = .next t ∧
      (∀ j, j < 8 → sampleIn (t.chan k) (8 * off + j) = some (b.getLsbD j)) ∧
      (∀ k' i, k' ≠ k ∨ i / 8 ≠ off → sampleIn (t.chan k') i = sampleIn (s.chan k') i) ∧
      t.tainted = (s.tainted || s.status.busy) ∧
      { t with ch0 := s.ch0, ch1 := s.ch1, ch2 := s.ch2, ch3 := s.ch3, tainted := s.tainted } = s) ∧
    (∀ (k : BitVec 2) (addr : Nat) (b : Byte),
      (s.chBase k + 2 ^ 29 ≤ addr → hostAct (.chWrite k addr b) s = .fault .noSuchSample) ∧
      (addr < s.chBase k → hostAct (.chWrite k addr b) s = .refused .outsideBlock)) ∧
    (∀ (off : Nat) (b : Byte), off < 2 ^ 32 * s.cfg.analogFormat.bytes → ∃ t : State,
      hostAct (.analogWrite (s.cfg.ach0Base + off) b) s = .next t ∧
      storeRead t.ach0 off = some b ∧
      (∀ a, a ≠ off → storeRead t.ach0 a = storeRead s.ach0 a) ∧
      (∀ i, i ≠ off / s.cfg.analogFormat.bytes → t.ach i = s.ach i) ∧
      t.tainted = (s.tainted || s.status.busy) ∧
      { t with ach0 := s.ach0, tainted := s.tainted } = s) ∧
    (∀ (addr : Nat) (b : Byte),
      (s.cfg.ach0Base + 2 ^ 32 * s.cfg.analogFormat.bytes ≤ addr →
        hostAct (.analogWrite addr b) s = .fault .noSuchSample) ∧
      (addr < s.cfg.ach0Base → hostAct (.analogWrite addr b) s = .refused .outsideBlock)) ∧
    (∀ i v : Nat, (∀ j, j < s.cfg.analogFormat.bytes →
        storeRead s.ach0 (s.cfg.analogFormat.bytes * i + j) = some (BitVec.ofNat 8 (v / 256 ^ j))) →
      s.ach i = some (if s.cfg.analogFormat.signed = true then ((BitVec.ofNat s.cfg.analogFormat.width v).toInt : Rat)
        else ((v % 2 ^ s.cfg.analogFormat.width : Nat) : Rat)))

/-- Emitting with room writes one 16-byte record at 16 · OUT_COUNT in the layout of R68 with the label and colour
codes of R69 and R70, counts it, changes no other byte of OUT and nothing else; with OUT full the operation ends with
OUT_OVERFLOW and writes nothing. Several annotations emitted in one step are written in order as far as there is room,
and the operation goes on only if all found room (R44, R47, R68, R69, R70, R126, R139). Full is OUT_COUNT at or above
OUT_CAP (log entry 18), and a byte nothing has written counts as 0 in a word of OUT (log entry 21). -/
def Obligations.EmitWritesOneRecord : Prop :=
  ∀ (s : State) (a : Annotation) (k : State → State),
    (s.Room → s.emit a k = k (s.pushRecord a)) ∧
    (¬ s.Room → s.emit a k = s.finish .outOverflow) ∧
    (s.Room → recordAt (s.pushRecord a).out s.outCount.toNat = a.view ∧
      (s.pushRecord a).outCount.toNat = s.outCount.toNat + 1) ∧
    (wordAt (s.pushRecord a).out (16 * s.outCount.toNat) = BitVec.ofNat 32 a.start ∧
      wordAt (s.pushRecord a).out (16 * s.outCount.toNat + 4) = BitVec.ofNat 32 a.stop ∧
      (wordAt (s.pushRecord a).out (16 * s.outCount.toNat + 8)).toNat =
        a.colour.code.toNat + 256 * a.label.code.toNat +
          (match a.payload with
            | .none => 0
            | .int _ width => 16 + 65536 * (width % 64)) ∧
      wordAt (s.pushRecord a).out (16 * s.outCount.toNat + 12) =
        (match a.payload with
          | .none => 0
          | .int v _ => v)) ∧
    (∀ (m : Mem) (x : Nat), (wordAt m x).toNat = ((List.range 4).map fun j =>
      ((storeRead m (x + j)).getD 0).toNat * 256 ^ j).sum) ∧
    [Label.sMark, .pMark, .reset, .rAck, .resetNotLongEnough, .untimelyResponse, .wrongAckWidth, .timeOut, .bitOne,
      .bitZero, .address, .read, .write, .command, .mOut, .sOut, .wFlag, .rFlag, .data, .left, .uartStart, .uartStop,
      .uartParity].map Label.code = (List.range 23).map (fun n => BitVec.ofNat 8 (n + 1)) ∧
    [Colour.event, .address, .data, .control, .error, .warning, .read, .write].map Colour.code =
      (List.range 8).map (BitVec.ofNat 4) ∧
    (∀ x, x < 16 * s.outCount.toNat ∨ 16 * s.outCount.toNat + 16 ≤ x →
      storeRead (s.pushRecord a).out x = storeRead s.out x) ∧
    { s.pushRecord a with out := s.out, outCount := s.outCount } = s ∧
    (∀ as : List Annotation,
      State.emitAll as s k =
        if s.outCount.toNat + as.length ≤ s.cfg.outCap.toNat ∨ as = [] then k (as.foldl State.pushRecord s)
        else ((as.take (s.cfg.outCap.toNat - s.outCount.toNat)).foldl State.pushRecord s).finish .outOverflow)

/-- The host reads OUT at its base plus a byte number: a fault before the first operation since reset has finished and
at or above OUT_COUNT, a free value while BUSY = 1, else the bytes the last operation wrote, little-endian (R44, R50,
R151, R155, 93 I5). The unit of OUT_COUNT, the mark that an operation has finished, the free value, the field the read
lands in and the refusal below the base are the model's (log entries 20, 24, 5, 4 and 12). -/
def Obligations.OutReads : Prop :=
  ∀ (s : State) (addr : Nat),
    (∀ acc, s.finishedOnce = false ∨ s.outUnit * s.outCount.toNat < addr + acc.bytes →
      hostAct (.outRead (s.cfg.outBase + addr) acc) s = .fault .outNotValid) ∧
    (s.finishedOnce = true →
      (∀ acc, s.status.busy = true → addr + acc.bytes ≤ s.outUnit * s.outCount.toNat →
        ∃ v, hostAct (.outRead (s.cfg.outBase + addr) acc) s = .next { s with hostData := v, free := s.free + 1 }) ∧
      (∀ b, s.status.busy = false → addr + 1 ≤ s.outUnit * s.outCount.toNat →
        storeRead s.out addr = some b →
        hostAct (.outRead (s.cfg.outBase + addr) .byte) s = .next { s with hostData := b.zeroExtend 32 }) ∧
      (∀ b0 b1, s.status.busy = false → addr + 2 ≤ s.outUnit * s.outCount.toNat →
        storeRead s.out addr = some b0 → storeRead s.out (addr + 1) = some b1 →
        hostAct (.outRead (s.cfg.outBase + addr) .half) s = .next { s with hostData := (b1 ++ b0 : BitVec 16).zeroExtend 32 }) ∧
      (s.status.busy = false → addr + 4 ≤ s.outUnit * s.outCount.toNat →
        ∀ b0 b1 b2 b3, storeRead s.out addr = some b0 → storeRead s.out (addr + 1) = some b1 →
          storeRead s.out (addr + 2) = some b2 → storeRead s.out (addr + 3) = some b3 →
          hostAct (.outRead (s.cfg.outBase + addr) .word) s = .next { s with hostData := (b3 ++ b2 ++ b1 ++ b0 : Word) })) ∧
    (∀ acc, addr < s.cfg.outBase → hostAct (.outRead addr acc) s = .refused .outsideBlock) ∧
    (s.outUnit = if s.cmd.toNat % 16 = 0 then 4 else 16)

/-! ## Start, end and frame of every operation (60_exceptions.md) -/

/-- Every started operation whose command and operands are legal and whose samples are written reaches its end
in one step of `exec`: BUSY = 0, DONE = 1 (R138), RESULT one of 0 to 5 (R23, R133). For an operation the host has
spoiled (R55) that bound is the model's reading (93 I9, log entry 10). The value the discarded working registers hold
is the model's (log entry 9), and R154 lets no claim of the hardware rest on it. -/
def Obligations.EveryOperationFinishes : Prop :=
  ∀ (i : Instr) (s : State), s.Ready i → ∃ t : State, exec i s = .next t ∧
    t.status.busy = false ∧ t.status.done = true ∧ t.status.result.toNat ≤ 5 ∧
    t.phase = .idle ∧ t.w = Work.initial

/-- EDGES, ONEWIRE, SPI3, SPI4, I2C, SYNC and I2S end with RESULT = OK when OUT can hold one record per sample,
and write fewer records than there are samples (R133, R138, R139). -/
def Obligations.ClockedOperationsEndOk : Prop :=
  ∀ (i : Instr) (s : State), clocked i = true → s.Ready i → s.tainted = false →
    s.n ≤ s.cfg.outCap.toNat → ∃ t : State, exec i s = .next t ∧
      t.status = { busy := false, done := true, result := 0 } ∧ t.outCount.toNat ≤ s.n - 1

/-- On constant lines every clocked decoder ends with RESULT = OK and no record: the exact next state, in which
OUT, the slots and the parameter registers are as before (R72, R138). The value the discarded working registers hold
is the model's (log entry 9), and R154 lets no claim of the hardware rest on it; the mark that an operation has
finished is the model's too (log entry 24). -/
def Obligations.ConstantLinesYieldNothing : Prop :=
  ∀ (i : Instr) (s : State), clocked i = true → s.Ready i → s.tainted = false →
    (∀ k ∈ opSlots i, ∃ b, s.Constant k b) →
    exec i s = .next { s with
      status := { busy := false, done := true, result := 0 }
      outCount := 0
      bpNum := 0
      bpDen := 1
      uartOffset := 0
      uartBslen := 0
      phase := .idle
      w := Work.initial
      finishedOnce := true }

/-- A command is legal exactly when its fields are and SP_NUM, SP_DEN and, for UART without AUTO, BAUD are not 0
(R66). A started operation with an illegal command word or operand finishes at once with CONFIG_ERROR: no record,
the diagnostic registers at their reset values, nothing else changed (R66, R137). The value the discarded working
registers hold is the model's (log entry 9), and R154 lets no claim of the hardware rest on it. That a reserved field
value decodes, to an instruction that is not well-formed, and the mark that an operation has finished are the model's
too (log entries 17, 24). -/
def Obligations.IllegalCommandIsRefused : Prop :=
  (∀ (i : Instr) (s : State), legal i s = true ↔
    i.wf = true ∧ s.op.spNum ≠ 0 ∧ s.op.spDen ≠ 0 ∧
      ((∃ d p st an, i = .uart d p st false an) → s.op.baud ≠ 0)) ∧
  ∀ s : State, s.Started → s.tainted = false →
    (∀ i : Instr,
      (i.wf = false ∨ s.op.spNum = 0 ∨ s.op.spDen = 0 ∨
        ((∃ d p st an, i = .uart d p st false an) ∧ s.op.baud = 0)) →
      exec i s = .next { s with
        status := { busy := false, done := true, result := 3 }
        outCount := 0
        bpNum := 0
        bpDen := 1
        uartOffset := 0
        uartBslen := 0
        phase := .idle
        w := Work.initial
        finishedOnce := true }) ∧
    (∀ e, decode s.cmd = .error e → s.script = [] →
      step s = .next { s with
        status := { busy := false, done := true, result := 3 }
        outCount := 0
        bpNum := 0
        bpDen := 1
        uartOffset := 0
        uartBslen := 0
        phase := .idle
        w := Work.initial
        finishedOnce := true })

/-- The slots each operation reads (R42), and that its samples count as written exactly when every sample below N
of them, or of ACH0 for an analog UART, holds a value; a legal operation started before they were written is a fault
(R151). That it is one at the start, whichever sample is missing, is the model's reading (log entry 14). -/
def Obligations.UnwrittenSamplesFault : Prop :=
  (∀ (f : Filter) (k : BitVec 2), opSlots (.edges f k) = [k]) ∧ opSlots .onewire = [0] ∧
  (∀ rwpos, opSlots (.spi3 rwpos) = [0, 1, 2]) ∧ (∀ cpol cpha, opSlots (.spi4 cpol cpha) = [0, 1, 2, 3]) ∧
  opSlots .i2c = [0, 1] ∧ (∀ cpha, opSlots (.sync cpha) = [0, 1]) ∧
  (∀ bpw delay order bedge, opSlots (.i2s bpw delay order bedge) = [0, 1, 2]) ∧
  (∀ d par st au, opSlots (.uart d par st au false) = [0] ∧ opSlots (.uart d par st au true) = []) ∧
  (∀ i : Instr, opReadsAnalog i = true ↔ ∃ d par st au, i = .uart d par st au true) ∧
  (∀ (i : Instr) (s : State), samplesWritten i s = true ↔
    (∀ k ∈ opSlots i, ∀ j, j < s.n → ∃ b, sampleIn (s.chan k) j = some b) ∧
      (opReadsAnalog i = true → ∀ j, j < s.n → ∃ v, s.ach j = some v)) ∧
  (∀ (i : Instr) (s : State), s.Started → legal i s = true →
    ((∃ k ∈ opSlots i, ∃ j, j < s.n ∧ sampleIn (s.chan k) j = none) ∨
      (opReadsAnalog i = true ∧ ∃ j, j < s.n ∧ s.ach j = none)) →
    exec i s = .fault .unwrittenSample)

/-- What no operation writes: the command and parameter registers, the sample slots, ACH0, the latched operands,
the parameters (R41, R54, R136), and the model's own script and read data (log entries 2, 4). -/
def Obligations.ExecFrame : Prop :=
  ∀ (i : Instr) (s t : State), exec i s = .next t →
    t.cmd = s.cmd ∧ t.len = s.len ∧ t.spNum = s.spNum ∧ t.spDen = s.spDen ∧ t.baud = s.baud ∧
    t.ch0 = s.ch0 ∧ t.ch1 = s.ch1 ∧ t.ch2 = s.ch2 ∧ t.ch3 = s.ch3 ∧ t.ach0 = s.ach0 ∧
    t.op = s.op ∧ t.cfg = s.cfg ∧ t.script = s.script ∧ t.hostData = s.hostData

/-- What an operation writes of OUT: only the bytes below OUT_COUNT records (EDGES: words), which are never
more than OUT can hold; every other byte of OUT reads as before. It is a frame: R40, R47, R48 and R49 name every write
of OUT. R154 lets no claim of the hardware say what OUT holds there, and a byte nothing has written is the model's
(log entry 6). -/
def Obligations.ExecWritesOnlyItsRecords : Prop :=
  ∀ (i : Instr) (s t : State), s.Started → s.tainted = false → exec i s = .next t →
    t.outCount.toNat ≤ capacityOf i s ∧
    ∀ a, unitOf i * t.outCount.toNat ≤ a → storeRead t.out a = storeRead s.out a

/-- Only UART writes the diagnostic registers: after every other operation they hold their reset values (R25). -/
def Obligations.DiagnosticsOnlyFromUart : Prop :=
  ∀ (i : Instr) (s t : State), clocked i = true → s.Started → s.tainted = false → exec i s = .next t →
    t.bpNum = 0 ∧ t.bpDen = 1 ∧ t.uartOffset = 0 ∧ t.uartBslen = 0

/-- The end of an operation (R133, R138). Not spoiled: STATUS is written with the code of the result, the working
registers are discarded, nothing else changes. An operation during which the host wrote a slot still finishes, with
DONE = 1 and one of the RESULT codes the block produces; RESULT, OUT_COUNT, the diagnostic registers and OUT's records
are free values, and every input, operand and parameter is kept (R55). The bound on RESULT and how many bytes of OUT
are free are the model's reading (log entries 10, 5), and so are the value the discarded working registers hold (log
entry 9), on which R154 lets no claim of the hardware rest, and the mark that an operation has finished (log
entry 24). -/
def Obligations.SpoiledOperationStillFinishes : Prop :=
  ∀ (s : State) (r : Result),
    (s.tainted = false → s.finish r = { s with
      status := {
        busy := false
        done := true
        result := match r with
          | .ok => 0
          | .emptyNoPeriod => 1
          | .emptyTooShort => 2
          | .configError => 3
          | .outOverflow => 4
          | .bitsOverflow => 5 }
      phase := .idle
      w := Work.initial
      finishedOnce := true }) ∧
    (s.tainted = true →
      (s.finish r).status.busy = false ∧ (s.finish r).status.done = true ∧
      (s.finish r).status.result.toNat ≤ 5 ∧
      (s.finish r).status.result.toNat = (Config.freeWord s.free).toNat % 6 ∧
      (s.finish r).outCount = Config.freeWord (s.free + 1) ∧
      (s.finish r).bpNum = Config.freeWord (s.free + 2) ∧
      (s.finish r).bpDen = (Config.freeWord (s.free + 3) ++ Config.freeWord (s.free + 4) : DWord) ∧
      (s.finish r).uartOffset = Config.freeWord (s.free + 5) ∧
      (s.finish r).uartBslen = Config.freeWord (s.free + 6) ∧
      (∀ a, storeRead (s.finish r).out a =
        if a < 16 * (s.finish r).outCount.toNat then some (Config.freeByte s.free a) else none) ∧
      (s.finish r).free = s.free + 7 ∧
      { s.finish r with
        status := s.status, outCount := s.outCount, bpNum := s.bpNum, bpDen := s.bpDen
        uartOffset := s.uartOffset, uartBslen := s.uartBslen, out := s.out, free := s.free } =
      { s with phase := .idle, w := Work.initial, tainted := false, finishedOnce := true })

/-- After every operation but EDGES the records of OUT are in order: START ≤ END in each, and START never
decreases from a record to the next, widened start markers included (R47, R48, R87, R98, R106, R126, R130). -/
def Obligations.EveryOutputIsOrdered : Prop :=
  ∀ (i : Instr) (s t : State), unitOf i = 16 → s.Ready i → s.tainted = false → exec i s = .next t →
    Ordered t.out t.outCount.toNat

/-- Nothing that an earlier operation, the other slots or the samples from N on hold reaches the results: two started
operations with the same latched operands and parameters, whose slots agree below N, give the same STATUS,
OUT_COUNT, diagnostic registers and records (R152, R154, R42, R43). -/
def Obligations.ResultsDependOnSamplesAlone : Prop :=
  ∀ (i : Instr) (s s' t t' : State), s.Ready i → s'.Ready i → s.tainted = false → s'.tainted = false →
    s.op = s'.op → s.cfg = s'.cfg →
    (∀ k ∈ opSlots i, ∀ j, j < s.n → sampleIn (s.chan k) j = sampleIn (s'.chan k) j) →
    (opReadsAnalog i = true → ∀ j, j < s.n → s.ach j = s'.ach j) →
    exec i s = .next t → exec i s' = .next t' →
    t.status = t'.status ∧ t.outCount = t'.outCount ∧ t.bpNum = t'.bpNum ∧ t.bpDen = t'.bpDen ∧
    t.uartOffset = t'.uartOffset ∧ t.uartBslen = t'.uartBslen ∧
    ∀ a, a < unitOf i * t.outCount.toNat → storeRead t.out a = storeRead t'.out a

/-! ## Invariant -/

/-- The invariant holds right after reset. What it says of an idle block's working registers is the model's choice
(log entry 9): R150 gives them no value then. So is the mark that an operation has finished (log entry 24). -/
def Obligations.ResetMeetsInvariant : Prop := State.reset.Inv

/-- Every step keeps the invariant: memories in canonical form, BUSY and DONE never together, RESULT a code the
block produces, latched operands equal to the registers while BUSY = 1, counters in range (R23, R35, R136, 93 I9).
That an idle block's working registers hold their initial values is the model's choice (log entry 9): R138 only
discards them. The mark that an operation has finished, which DONE implies, is the model's (log entry 24). -/
def Obligations.StepKeepsInvariant : Prop :=
  ∀ s t : State, s.Inv → step s = .next t → t.Inv

/-! ## EdgeExtractor (40_edge_extractor.md) -/

/-- A sample of a slot below N is the bit the host wrote for it, unwritten it is a fault, and one at or above N is
the other fault (R41, R43, R151; the faults' names and that a slot's byte nothing has written has no value are log
entry 6). The edge predicates on two neighbouring samples, and none at index 0 (R72). -/
def Obligations.EdgePredicates : Prop :=
  ∀ (s : State) (k : BitVec 2),
    (s.chan 0 = s.ch0 ∧ s.chan 1 = s.ch1 ∧ s.chan 2 = s.ch2 ∧ s.chan 3 = s.ch3) ∧
    (∀ i b, i < s.n → (s.smp k i = .ok b ↔ sampleIn (s.chan k) i = some b)) ∧
    (∀ i, i < s.n → sampleIn (s.chan k) i = none → s.smp k i = .error .unwrittenSample) ∧
    (∀ i, s.n ≤ i → s.smp k i = .error .sampleOutOfRange) ∧
    (∀ i b, sampleIn (s.chan k) i = some b ↔ ∃ v, storeRead (s.chan k) (i / 8) = some v ∧ b = v.getLsbD (i % 8)) ∧
    (∀ i p c, 1 ≤ i → s.smp k (i - 1) = .ok p → s.smp k i = .ok c → ∃ l, s.levels k i = .ok l ∧ l = (p, c) ∧
      (rise l = true ↔ p = false ∧ c = true) ∧ (fall l = true ↔ p = true ∧ c = false) ∧
      (edge l = true ↔ c ≠ p) ∧ ¬(rise l = true ∧ fall l = true)) ∧
    (∀ l, s.levels k 0 = .ok l → rise l = false ∧ fall l = false ∧ edge l = false)

/-- `Edges(k, FILT)` holds exactly the indices 1 ≤ i < N at which the filter matches, strictly increasing: ANY where
the sample differs from the one before, RISING where it goes from 0 to 1, FALLING where it goes from 1 to 0 (R73,
R74). -/
def Obligations.EdgeListIsTheEdges : Prop :=
  ∀ (s : State) (k : BitVec 2) (f : Filter) (es : List Nat), s.edgeList k f = .ok es →
    (∀ i, i ∈ es ↔ 1 ≤ i ∧ i < s.n ∧ ∃ p c, s.smp k (i - 1) = .ok p ∧ s.smp k i = .ok c ∧
      ((f = .any ∧ p ≠ c) ∨ (f = .rising ∧ p = false ∧ c = true) ∨
        (f = .falling ∧ p = true ∧ c = false))) ∧
    es.Pairwise (· < ·) ∧ es.length ≤ s.n - 1

/-- EDGES writes the edge list of its slot as words to OUT, in order, and ends with OK when it fits in
4 · OUT_CAP words, else with OUT_OVERFLOW and the first 4 · OUT_CAP of them (R49, R75). -/
def Obligations.EdgesWritesTheEdgeList : Prop :=
  ∀ (filt : Filter) (slot : BitVec 2) (s : State) (es : List Nat),
    s.Ready (.edges filt slot) → s.tainted = false → s.edgeList slot filt = .ok es →
    ∃ t : State, exec (.edges filt slot) s = .next t ∧
      t.status.busy = false ∧ t.status.done = true ∧
      t.status.result = (if es.length ≤ 4 * s.cfg.outCap.toNat then 0 else 4) ∧
      t.outCount.toNat = min es.length (4 * s.cfg.outCap.toNat) ∧
      ∀ n, n < t.outCount.toNat → (wordAt t.out (4 * n)).toNat = es.getD n 0

/-! ## 1-Wire (41_onewire.md) -/

/-- Idle, Active, One, MasterWritingZero and MasterReadingZero: a falling edge enters the next state and
emits nothing, anything else changes nothing (R79, R83, R86). -/
def Obligations.OneWireFallingEdgeStarts : Prop :=
  ∀ (s : State) (p c : Bool), s.Scanning → s.levels 0 s.w.i = .ok (p, c) →
    (s.w.ow = .idle →
      move .onewire s = .next { s with w :=
        if p = true ∧ c = false then
          { s.w with ow := .resetMasterPulse, entry := s.w.i, i := s.w.i + 1 }
        else { s.w with i := s.w.i + 1 } }) ∧
    (s.w.ow = .active ∨ s.w.ow = .one ∨ s.w.ow = .masterWritingZero ∨ s.w.ow = .masterReadingZero →
      move .onewire s = .next { s with w :=
        if p = true ∧ c = false then
          { s.w with ow := .activeFallen, entry := s.w.i, i := s.w.i + 1 }
        else { s.w with i := s.w.i + 1 } })

/-- ResetMasterPulse: at the rising edge a low time above OW_T_RSTL_MIN is Reset, any other
ResetNotLongEnough, over [s, i); with no rising edge nothing changes (R80). With OUT full the emit writes nothing and
the operation ends with OUT_OVERFLOW (R139; full is OUT_COUNT at or above OUT_CAP, log entry 18). -/
def Obligations.OneWireResetPulse : Prop :=
  ∀ (s : State) (p c : Bool), s.Scanning → s.levels 0 s.w.i = .ok (p, c) →
    s.w.ow = .resetMasterPulse →
    move .onewire s = .next
      (if p = false ∧ c = true then
        if s.cfg.owRstlMin * s.op.spDen.toNat <
            (s.w.i - s.w.entry) * s.op.spNum.toNat * 1000000 then
          s.emitThen { label := .reset, colour := .event, start := s.w.entry, stop := s.w.i,
                       payload := .none }
            { s.w with ow := .resetSlaveWait, entry := s.w.i, i := s.w.i + 1 }
        else
          s.emitThen { label := .resetNotLongEnough, colour := .error, start := s.w.entry,
                       stop := s.w.i, payload := .none }
            { s.w with ow := .idle, entry := s.w.i, i := s.w.i + 1 }
      else { s with w := { s.w with i := s.w.i + 1 } })

/-- ResetSlaveWait: at the falling edge a wait inside the open window (OW_T_PDH_MIN, OW_T_PDH_MAX) starts the
presence pulse, any other is UntimelyResponse; with no falling edge nothing changes (R81). With OUT full the emit
writes nothing and the operation ends with OUT_OVERFLOW (R139; log entry 18). -/
def Obligations.OneWirePresenceWait : Prop :=
  ∀ (s : State) (p c : Bool), s.Scanning → s.levels 0 s.w.i = .ok (p, c) →
    s.w.ow = .resetSlaveWait →
    move .onewire s = .next
      (if p = true ∧ c = false then
        if s.cfg.owPdhMin * s.op.spDen.toNat <
              (s.w.i - s.w.entry) * s.op.spNum.toNat * 1000000 ∧
            (s.w.i - s.w.entry) * s.op.spNum.toNat * 1000000 <
              s.cfg.owPdhMax * s.op.spDen.toNat then
          { s with w := { s.w with ow := .resetSlavePulse, entry := s.w.i, i := s.w.i + 1 } }
        else
          s.emitThen { label := .untimelyResponse, colour := .error, start := s.w.entry,
                       stop := s.w.i, payload := .none }
            { s.w with ow := .idle, entry := s.w.i, i := s.w.i + 1 }
      else { s with w := { s.w with i := s.w.i + 1 } })

/-- ResetSlavePulse: at the rising edge a low time inside the open window (OW_T_PDL_MIN, OW_T_PDL_MAX) is R_ACK,
any other WrongAckWidth; with no rising edge nothing changes (R82). With OUT full the emit writes nothing and the
operation ends with OUT_OVERFLOW (R139; log entry 18). -/
def Obligations.OneWirePresencePulse : Prop :=
  ∀ (s : State) (p c : Bool), s.Scanning → s.levels 0 s.w.i = .ok (p, c) →
    s.w.ow = .resetSlavePulse →
    move .onewire s = .next
      (if p = false ∧ c = true then
        if s.cfg.owPdlMin * s.op.spDen.toNat <
              (s.w.i - s.w.entry) * s.op.spNum.toNat * 1000000 ∧
            (s.w.i - s.w.entry) * s.op.spNum.toNat * 1000000 <
              s.cfg.owPdlMax * s.op.spDen.toNat then
          s.emitThen { label := .rAck, colour := .event, start := s.w.entry, stop := s.w.i,
                       payload := .none }
            { s.w with ow := .active, entry := s.w.i, i := s.w.i + 1 }
        else
          s.emitThen { label := .wrongAckWidth, colour := .error, start := s.w.entry,
                       stop := s.w.i, payload := .none }
            { s.w with ow := .idle, entry := s.w.i, i := s.w.i + 1 }
      else { s with w := { s.w with i := s.w.i + 1 } })

/-- ActiveFallen: at the rising edge the low time classifies the slot as 1, master-read 0 or master-write 0; with
no rising edge the watchdog fires once the low time exceeds OW_WD_SLOTS · OW_T_SLOT (R84, R85). With OUT full the emit
writes nothing and the operation ends with OUT_OVERFLOW (R139; log entry 18). -/
def Obligations.OneWireSlot : Prop :=
  ∀ (s : State) (p c : Bool), s.Scanning → s.levels 0 s.w.i = .ok (p, c) →
    s.w.ow = .activeFallen →
    move .onewire s = .next
      (if p = false ∧ c = true then
        if (s.w.i - s.w.entry) * s.op.spNum.toNat * 1000000 < s.cfg.owOne * s.op.spDen.toNat then
          s.emitThen { label := .bitOne, colour := .data, start := s.w.entry, stop := s.w.i,
                       payload := .int 1 1 }
            { s.w with ow := .one, entry := s.w.i, i := s.w.i + 1 }
        else if (s.w.i - s.w.entry) * s.op.spNum.toNat * 1000000 <
            s.cfg.owSlot * s.op.spDen.toNat then
          s.emitThen { label := .bitZero, colour := .read, start := s.w.entry, stop := s.w.i,
                       payload := .int 0 1 }
            { s.w with ow := .masterReadingZero, entry := s.w.i, i := s.w.i + 1 }
        else
          s.emitThen { label := .bitZero, colour := .write, start := s.w.entry, stop := s.w.i,
                       payload := .int 0 1 }
            { s.w with ow := .masterWritingZero, entry := s.w.i, i := s.w.i + 1 }
      else if s.cfg.owWdSlots * s.cfg.owSlot * s.op.spDen.toNat <
          (s.w.i - s.w.entry) * s.op.spNum.toNat * 1000000 then
        s.emitThen { label := .timeOut, colour := .error, start := s.w.entry, stop := s.w.i,
                     payload := .none }
          { s.w with ow := .idle, entry := s.w.i, i := s.w.i + 1 }
      else { s with w := { s.w with i := s.w.i + 1 } })

/-- Every 1-Wire annotation spans a non-empty range, and the starts are strictly increasing (R87). -/
def Obligations.OneWireStartsStrictlyIncrease : Prop :=
  ∀ s t : State, s.Ready .onewire → s.tainted = false → exec .onewire s = .next t →
    (∀ k, k < t.outCount.toNat → recStart t.out k < recStop t.out k) ∧
    (∀ k, k + 1 < t.outCount.toNat → recStart t.out k < recStart t.out (k + 1))

/-! ## SPI (42_spi.md) -/

/-- Framing of SPI3 and SPI4 at one index: nCS falling opens a transaction with a zero-width S, nCS rising
closes an open one with P over [last, i) and is ignored in Idle, whatever the clock does there; in Idle, or at an
index without the sampling edge (rising for SPI3, by CPHA for SPI4), nothing changes (R88, R89, R90, R91, R95). With
OUT full the emit writes nothing and the operation ends with OUT_OVERFLOW (R139; log entry 18). That the opening also
clears the bit registers only the other decoder has is the model's choice (log entry 26). -/
def Obligations.SpiFraming : Prop :=
  ∀ (i : Instr) (e : ClockEdge) (s : State) (p c : Bool) (sck : Bool × Bool),
    ((∃ r, i = .spi3 r ∧ e = .rising) ∨ (∃ cpol, i = .spi4 cpol e)) →
    s.Scanning → samplesWritten i s = true →
    s.levels 0 s.w.i = .ok (p, c) → s.levels 1 s.w.i = .ok sck →
    (p = true ∧ c = false →
      move i s = .next
        (s.emitThen { label := .sMark, colour := .event, start := s.w.i, stop := s.w.i,
                      payload := .none }
          { s.w with bus := .active, first := true, cnt := 0, acc := 0, mo := 0, mi := 0,
                     rw := false, last := s.w.i, i := s.w.i + 1 })) ∧
    (p = false ∧ c = true → s.w.bus = .active →
      move i s = .next
        (s.emitThen { label := .pMark, colour := .event, start := s.w.last, stop := s.w.i,
                      payload := .none }
          { s.w with bus := .idle, i := s.w.i + 1 })) ∧
    (p = false ∧ c = true → s.w.bus = .idle →
      move i s = .next { s with w := { s.w with i := s.w.i + 1 } }) ∧
    (p = c → s.w.bus = .idle ∨ sck ≠ (decide (e = .falling), decide (e = .rising)) →
      move i s = .next { s with w := { s.w with i := s.w.i + 1 } })

/-- SPI3 bit at a rising SCLK edge inside a transaction: SDIO is shifted in MSB first; at the eighth bit the byte is
reported over [bs, i) as Address, Read or Write and the flag bit RWPOS of the first byte is kept (R92, R93). That flag
value 1 is Read the spec itself marks as general knowledge, not in its source (R93; log entry 23). With OUT full the
emit writes nothing and the operation ends with OUT_OVERFLOW (R139; log entry 18). -/
def Obligations.Spi3Bit : Prop :=
  ∀ (rwpos : BitVec 3) (s : State) (ncs b : Bool) (acc : Byte), s.Scanning →
    s.levels 0 s.w.i = .ok (ncs, ncs) → s.levels 1 s.w.i = .ok (false, true) →
    s.smp 2 s.w.i = .ok b → s.w.bus = .active →
    acc.toNat = (2 * s.w.acc.toNat + b.toNat) % 256 →
    (s.w.cnt < 7 →
      move (.spi3 rwpos) s = .next { s with
        w := { s.w with acc := acc, bs := if s.w.cnt = 0 then s.w.i else s.w.bs, cnt := s.w.cnt + 1,
                        last := s.w.i, i := s.w.i + 1 } }) ∧
    (s.w.cnt = 7 → s.w.first = true →
      move (.spi3 rwpos) s = .next
        (s.emitThen { label := .address, colour := .address, start := s.w.bs, stop := s.w.i,
                      payload := .int (acc.zeroExtend 32) 8 }
          { s.w with rw := acc.getLsbD rwpos.toNat, first := false, acc := 0, cnt := 0,
                     last := s.w.i, i := s.w.i + 1 })) ∧
    (s.w.cnt = 7 → s.w.first = false →
      move (.spi3 rwpos) s = .next
        (s.emitThen { label := if s.w.rw then .read else .write, colour := .data, start := s.w.bs,
                      stop := s.w.i, payload := .int (acc.zeroExtend 32) 8 }
          { s.w with acc := 0, cnt := 0, last := s.w.i, i := s.w.i + 1 }))

/-- SPI4 bit at the sampling edge CPHA selects, for either CPOL: MOSI and MISO are shifted in; at the eighth bit one
annotation, Command for the first byte, else MOut unless MOSI is 0x00 or 0xFF, else SOut (R95, R96, R97). With OUT full
the emit writes nothing and the operation ends with OUT_OVERFLOW (R139; log entry 18). -/
def Obligations.Spi4Bit : Prop :=
  ∀ (cpol : Bool) (cpha : ClockEdge) (s : State) (ncs mosi miso : Bool) (mo mi : Byte),
    s.Scanning →
    s.levels 0 s.w.i = .ok (ncs, ncs) →
    s.levels 1 s.w.i = .ok (decide (cpha = .falling), decide (cpha = .rising)) →
    s.smp 2 s.w.i = .ok mosi → s.smp 3 s.w.i = .ok miso → s.w.bus = .active →
    mo.toNat = (2 * s.w.mo.toNat + mosi.toNat) % 256 →
    mi.toNat = (2 * s.w.mi.toNat + miso.toNat) % 256 →
    (s.w.cnt < 7 →
      move (.spi4 cpol cpha) s = .next { s with
        w := { s.w with mo := mo, mi := mi, bs := if s.w.cnt = 0 then s.w.i else s.w.bs,
                        cnt := s.w.cnt + 1, last := s.w.i, i := s.w.i + 1 } }) ∧
    (s.w.cnt = 7 →
      move (.spi4 cpol cpha) s = .next
        (s.emitThen
            (if s.w.first = true then
              { label := .command, colour := .control, start := s.w.bs, stop := s.w.i,
                payload := .int (mo.zeroExtend 32) 8 }
            else if mo ≠ 0x00 ∧ mo ≠ 0xFF then
              { label := .mOut, colour := .data, start := s.w.bs, stop := s.w.i,
                payload := .int (mo.zeroExtend 32) 8 }
            else
              { label := .sOut, colour := .data, start := s.w.bs, stop := s.w.i,
                payload := .int (mi.zeroExtend 32) 8 })
          { s.w with first := false, mo := 0, mi := 0, cnt := 0, last := s.w.i,
                     i := s.w.i + 1 }))

/-! ## I2C (43_i2c.md) -/

/-- Start and stop conditions: SDA moves while SCL is high before and at the index. A start opens a transaction
with a zero-width S in either state, a stop closes an open one with P over [last, i) and is ignored in Idle;
with no condition and no SCL rising edge, or in Idle, nothing changes (R100, R101, R102, R103). With OUT full the emit
writes nothing and the operation ends with OUT_OVERFLOW (R139; log entry 18). -/
def Obligations.I2cConditions : Prop :=
  ∀ (s : State) (scl sda : Bool × Bool), s.Scanning →
    s.levels 0 s.w.i = .ok scl → s.levels 1 s.w.i = .ok sda →
    (scl = (true, true) → sda = (true, false) →
      move .i2c s = .next
        (s.emitThen { label := .sMark, colour := .event, start := s.w.i, stop := s.w.i,
                      payload := .none }
          { s.w with bus := .active, acc := 0, left := 8, first := true, last := s.w.i,
                     i := s.w.i + 1 })) ∧
    (scl = (true, true) → sda = (false, true) → s.w.bus = .active →
      move .i2c s = .next
        (s.emitThen { label := .pMark, colour := .event, start := s.w.last, stop := s.w.i,
                      payload := .none }
          { s.w with bus := .idle, i := s.w.i + 1 })) ∧
    (scl = (true, true) → sda = (false, true) → s.w.bus = .idle →
      move .i2c s = .next { s with w := { s.w with i := s.w.i + 1 } }) ∧
    (scl ≠ (true, true) ∨ sda.1 = sda.2 → scl ≠ (false, true) ∨ s.w.bus = .idle →
      move .i2c s = .next { s with w := { s.w with i := s.w.i + 1 } })

/-- SCL rising inside a transaction: eight data bits are shifted in, the ninth is the ACK bit and reports the
group over [gs, i), address group or data group, WARNING on NACK, and re-arms the counter (R104, R105). With OUT full
the emit writes nothing and the operation ends with OUT_OVERFLOW (R139; log entry 18). -/
def Obligations.I2cBit : Prop :=
  ∀ (s : State) (q b : Bool) (acc : Byte), s.Scanning →
    s.levels 0 s.w.i = .ok (false, true) → s.levels 1 s.w.i = .ok (q, b) → s.w.bus = .active →
    acc.toNat = (2 * s.w.acc.toNat + b.toNat) % 256 →
    (0 < s.w.left →
      move .i2c s = .next { s with
        w := { s.w with acc := acc, gs := if s.w.left = 8 then s.w.i else s.w.gs,
                        left := s.w.left - 1, last := s.w.i, i := s.w.i + 1 } }) ∧
    (s.w.left = 0 →
      move .i2c s = .next
        (s.emitThen
            (if s.w.first = true then
              { label := if s.w.acc.toNat % 2 = 0 then .wFlag else .rFlag
                colour := if b = false then .address else .warning
                start := s.w.gs
                stop := s.w.i
                payload := .int (BitVec.ofNat 32 (s.w.acc.toNat / 2)) 7 }
            else
              { label := .data
                colour := if b = false then .data else .warning
                start := s.w.gs
                stop := s.w.i
                payload := .int (BitVec.ofNat 32 s.w.acc.toNat) 8 })
          { s.w with left := 8, acc := 0, first := false, last := s.w.i, i := s.w.i + 1 }))

/-! ## Synchronous serial (44_sync_serial.md) -/

/-- SYNC reports one D byte per eight sampling edges of CLK, counted from the first of the buffer: record m spans
from edge 8m to edge 8m + 7 and holds DATA at those edges, MSB first; left-over bits are discarded (R107, R108, R109).
When OUT cannot hold them all, those it can hold are written and the operation ends with OUT_OVERFLOW (R139). -/
def Obligations.SyncReportsEveryEightEdges : Prop :=
  ∀ (cpha : ClockEdge) (s : State) (es : List Nat), s.Ready (.sync cpha) → s.tainted = false →
    s.edgeList 0 (if cpha = .rising then .rising else .falling) = .ok es →
    ∃ t : State, exec (.sync cpha) s = .next t ∧
      t.status.busy = false ∧ t.status.done = true ∧
      t.status.result = (if es.length / 8 ≤ s.cfg.outCap.toNat then 0 else 4) ∧
      t.outCount.toNat = min (es.length / 8) s.cfg.outCap.toNat ∧
      ∀ (m : Nat) (b : Nat → Bool), m < t.outCount.toNat →
        (∀ j, j < 8 → s.smp 1 (es.getD (8 * m + j) 0) = .ok (b j)) →
        recordAt t.out m =
          { label := 0x13, colour := 2, start := es.getD (8 * m) 0, stop := es.getD (8 * m + 7) 0,
            kind := 1, width := 8,
            value := BitVec.ofNat 32 ((List.range 8).map fun j => (b j).toNat * 2 ^ (7 - j)).sum }

/-! ## I2S (45_i2s.md) -/

/-- From the start of its scan I2S takes one micro-step per index over LRCK, then one per index over BCLK, and
begins the word loop with FE the frame-clock edges in both directions, BE the sampling edges of the bit clock and
pair 0; nothing else changes (R110, R164). The two micro-steps that go on to the next list are the model's (log
entry 15). -/
def Obligations.I2sExtractsEdges : Prop :=
  ∀ (bpw : BitVec 6) (delay : BitVec 4) (order : BitOrder) (bedge : ClockEdge) (s : State)
    (fe be : List Nat), s.status.busy = true → s.phase = .scan → s.w.i = 1 → s.w.fe = [] → s.w.be = [] →
    s.edgeList 0 .any = .ok fe → s.edgeList 1 (if bedge = .rising then .rising else .falling) = .ok be →
    runMoves (move (.i2s bpw delay order bedge)) (2 * (s.n - 1) + 2) s = .next { s with
      phase := .words
      w := { s.w with fe := fe, be := be, k := 0, i := max 1 s.n } }

/-- The word of one frame half [f, g): with C the sampling edges after f, a word exists when C holds DELAY + BPW
edges and its edge number DELAY lies before g; its bits are SD at the next BPW edges, MSB or LSB first, its
label the level of LRCK at f (R111, R112). That LRCK low is the left word the spec itself marks as general knowledge,
not in its source (R112; log entry 23). That the accumulator takes the whole word at once and keeps it is the model's
choice (R31 gives only its initial 0; log entry 25). With OUT full the emit writes nothing and the operation ends with
OUT_OVERFLOW (R139; log entry 18). After the last pair of frame-clock edges the operation finishes with OK
(R110), in a micro-step of its own (log entry 15). -/
def Obligations.I2sWordOfAHalf : Prop :=
  ∀ (bpw : BitVec 6) (delay : BitVec 4) (order : BitOrder) (bedge : ClockEdge) (s : State), s.phase = .words →
    (s.w.fe.length ≤ s.w.k + 1 → move (.i2s bpw delay order bedge) s = .next (s.finish .ok)) ∧
    ∀ f g : Nat, s.w.fe[s.w.k]? = some f → s.w.fe[s.w.k + 1]? = some g →
    ((s.w.be.filter (f < ·)).length < delay.toNat + bpw.toNat ∨
        (∃ e, (s.w.be.filter (f < ·))[delay.toNat]? = some e ∧ g ≤ e) →
      move (.i2s bpw delay order bedge) s = .next { s with w := { s.w with k := s.w.k + 1 } }) ∧
    (∀ (e : Nat) (b : Nat → Bool) (lr : Bool), bpw ≠ 0 →
      delay.toNat + bpw.toNat ≤ (s.w.be.filter (f < ·)).length →
      (s.w.be.filter (f < ·))[delay.toNat]? = some e → e < g →
      (∀ j, j < bpw.toNat → s.smp 2 ((s.w.be.filter (f < ·)).getD (delay.toNat + j) 0) = .ok (b j)) →
      s.smp 0 f = .ok lr →
      move (.i2s bpw delay order bedge) s = .next
        (s.emitThen
            { label := if lr = false then .left else .rFlag
              colour := .data
              start := f
              stop := g
              payload := .int (BitVec.ofNat 32
                (match order with
                  | .msb => ((List.range bpw.toNat).map fun j =>
                      (b j).toNat * 2 ^ (bpw.toNat - 1 - j)).sum
                  | .lsb => ((List.range bpw.toNat).map fun j =>
                      (b j).toNat * 2 ^ j).sum)) bpw.toNat }
          { s.w with
            wordAcc := BitVec.ofNat 32
              (match order with
                | .msb => ((List.range bpw.toNat).map fun j =>
                    (b j).toNat * 2 ^ (bpw.toNat - 1 - j)).sum
                | .lsb => ((List.range bpw.toNat).map fun j =>
                    (b j).toNat * 2 ^ j).sum)
            k := s.w.k + 1 }))

/-! ## UART (46_uart.md) -/

/-- θ is the midpoint of the two most frequent levels, ties to the smaller value; with fewer than two distinct
levels there is none and every sample is 0; otherwise a sample is 1 when strictly above θ (R114). How the bytes of
ACH0 give a sample its value is another statement (log entry 7). -/
def Obligations.AnalogThreshold : Prop :=
  (∀ (vs : List Rat) (a b : Rat), a ∈ vs → b ∈ vs → a ≠ b →
    (∀ c ∈ vs, c ≠ a → vs.count c < vs.count a ∨ (vs.count c = vs.count a ∧ a < c)) →
    (∀ c ∈ vs, c ≠ a → c ≠ b → vs.count c < vs.count b ∨ (vs.count c = vs.count b ∧ b < c)) →
    thresholdOf vs = some ((a + b) / 2)) ∧
  (∀ vs : List Rat, (∀ a ∈ vs, ∀ b ∈ vs, a = b) → thresholdOf vs = none) ∧
  (∀ (s : State) (i : Nat) (v : Rat), i < s.n → s.ach i = some v →
    (s.w.theta = none → uartLevel true s i = .ok false) ∧
    (∀ t, s.w.theta = some t → uartLevel true s i = .ok (decide (t < v))))

/-- The run scanner: the runs concatenate to the samples, lie one after another from sample 0, are not empty and
alternate in level (R115). -/
def Obligations.RunsPartitionTheSamples : Prop :=
  ∀ xs : List Bool,
    (runsOf xs).flatMap (fun r => List.replicate r.len r.level) = xs ∧
    Contiguous 0 (runsOf xs) ∧ Alternating (runsOf xs) ∧
    ((runsOf xs).map Run.len).sum = xs.length

/-- The first micro-step of every operation that may run, spelled out: the outputs are cleared, every working register
takes its per-call initial value, the scan begins; UART's run scanner begins at sample 0, with θ the threshold of the
samples for an analog input (R26 to R34, R36, R37, R113, R114, R136). That θ is found in this step and that UART's
scanner starts at 0 is log entry 15; what P holds before it is set is the model's (log entry 9).
Then the scan of UART adds the sample at i (that of CH0, or for an analog input 1 when strictly above θ) to the runs,
and after the last sample goes on to the bit period (R42, R113, R114, R115), in a micro-step of its own (log entry
15). -/
def Obligations.FirstStepAndUartScan : Prop :=
  (∀ (i : Instr) (s : State), s.Ready i →
    move i s = .next { s with
      outCount := 0
      bpNum := 0
      bpDen := 1
      uartOffset := 0
      uartBslen := 0
      phase := .scan
      w := {
        i := if clocked i = true then 1 else 0
        entry := 0
        ow := .idle
        bus := .idle
        acc := 0
        mo := 0
        mi := 0
        cnt := 0
        left := 8
        first := false
        rw := false
        bs := 0
        last := 0
        gs := 0
        j := 0
        fe := []
        be := []
        k := 0
        wordAcc := 0
        theta := if opReadsAnalog i = true then thresholdOf ((List.range s.n).filterMap s.ach) else none
        runs := []
        hist := []
        pNum := 0
        pDen := 1
        bits := []
        bidx := []
        frame := 0
        best := 0
        bestcnt := 0
        o := 0
        p := 0 } }) ∧
  (∀ (d : BitVec 4) (par : Parity) (st au an x : Bool) (s : State), s.phase = .scan →
    (s.w.i < s.n → (an = false → s.smp 0 s.w.i = .ok x) →
        (an = true → ∃ v, s.ach s.w.i = some v ∧ (x = true ↔ ∃ t, s.w.theta = some t ∧ t < v)) →
        s.status.busy = true →
      move (.uart d par st au an) s = .next { s with
        w := { s.w with runs := addSample x s.w.i s.w.runs, i := s.w.i + 1 } }) ∧
    (s.n ≤ s.w.i → move (.uart d par st au an) s = .next { s with phase := .period }))

/-- P from BAUD is SP_DEN / (BAUD · SP_NUM) exactly, in lowest terms, positive, and fits BP_NUM and BP_DEN (R116,
R25). -/
def Obligations.BaudPeriodIsExact : Prop :=
  ∀ op : Latched, op.spNum ≠ 0 → op.spDen ≠ 0 → op.baud ≠ 0 →
    (baudPeriod op).1 * (op.baud.toNat * op.spNum.toNat) = op.spDen.toNat * (baudPeriod op).2 ∧
    Nat.gcd (baudPeriod op).1 (baudPeriod op).2 = 1 ∧
    1 ≤ (baudPeriod op).1 ∧ (baudPeriod op).1 < 2 ^ 32 ∧
    1 ≤ (baudPeriod op).2 ∧ (baudPeriod op).2 < 2 ^ 64

/-- Auto-baud finds K exactly when K is the least run length that at least two runs have (R117). -/
def Obligations.AutobaudIsLeastRepeatedLength : Prop :=
  ∀ (runs : List Run) (k : Nat),
    autobaud (histogram runs) = some k ↔
      2 ≤ runs.countP (fun r => r.len == k) ∧ ∀ l, l < k → runs.countP (fun r => r.len == l) < 2

/-- `roundTie` gives a nearest integer; on an exact half the even one (HALF_EVEN) or the larger one (HALF_UP)
(R11). -/
def Obligations.RoundTieIsNearest : Prop :=
  ∀ (tie : Tie) (a b : Nat), 0 < b →
    2 * (roundTie tie a b * b) ≤ 2 * a + b ∧ 2 * a ≤ 2 * (roundTie tie a b * b) + b ∧
    (2 * (a % b) = b → tie = .halfEven → roundTie tie a b % 2 = 0) ∧
    (2 * (a % b) = b → tie = .halfUp → 2 * (roundTie tie a b * b) = 2 * a + b)

/-- A run of len samples gives roundTie(len / P) copies, and L is their sum. The bitstream and its map, entry by
entry: copy u of a run stands at the position that counts the copies before it, holds the run's level and starts at
start + floor(u · P), inside the run; both lists have L entries; BIDX never decreases and strictly increases when
P ≥ 1; the model builds the lists from exactly these entries, in order (R118, R119; roundTie is R11's, stated by
itself). -/
def Obligations.BitIndexMap : Prop :=
  (∀ (tie : Tie) (pNum pDen : Nat) (r : Run), copies tie pNum pDen r = roundTie tie (r.len * pDen) pNum) ∧
  (∀ (tie : Tie) (pNum pDen : Nat) (runs : List Run),
    streamLength tie pNum pDen runs = (runs.map fun r => roundTie tie (r.len * pDen) pNum).sum) ∧
  ∀ (tie : Tie) (pNum pDen : Nat) (runs : List Run), 0 < pNum → 0 < pDen → Contiguous 0 runs →
    (streamBits tie pNum pDen runs).length = streamLength tie pNum pDen runs ∧
    (streamIndex tie pNum pDen runs).length = streamLength tie pNum pDen runs ∧
    (streamIndex tie pNum pDen runs).Pairwise (· ≤ ·) ∧
    (pDen ≤ pNum → (streamIndex tie pNum pDen runs).Pairwise (· < ·)) ∧
    (∀ (before after : List Run) (r : Run) (u : Nat), runs = before ++ r :: after → u < copies tie pNum pDen r →
      (streamBits tie pNum pDen runs)[streamLength tie pNum pDen before + u]? = some r.level ∧
      (streamIndex tie pNum pDen runs)[streamLength tie pNum pDen before + u]? =
        some (r.start + u * pNum / pDen) ∧
      r.start + u * pNum / pDen < r.start + r.len) ∧
    (∀ b : Nat, streamEntry tie pNum pDen runs b =
      match (streamBits tie pNum pDen runs)[b]?, (streamIndex tie pNum pDen runs)[b]? with
      | some v, some x => some (v, x)
      | _, _ => none)

/-- From the period on: no repeated run length in auto mode ends the operation with EMPTY_NO_PERIOD; otherwise one
micro-step writes BP, and a bitstream longer than BITS_CAP ends the operation there with BITS_OVERFLOW and UART_BSLEN
still 0; any other is built with one micro-step per bit, UART_BSLEN still 0, and then UART_BSLEN is L, and one shorter
than a frame ends the operation with EMPTY_TOO_SHORT, else the search begins (R113, R117 to R120, R140, R141, R164).
That HIST, the period and L come in one micro-step and the end of the bitstream in another is the model's (log
entry 15). -/
def Obligations.UartPeriodOutcomes : Prop :=
  ∀ (d : BitVec 4) (par : Parity) (st an : Bool) (s : State), s.status.busy = true → s.phase = .period →
    s.tainted = false → s.uartBslen = 0 → s.w.bits = [] → s.w.bidx = [] →
    (autobaud (histogram s.w.runs) = none → ∃ t, move (.uart d par st true an) s = .next t ∧
      t.status = { busy := false, done := true, result := 1 } ∧ t.bpNum = s.bpNum ∧
      t.outCount = s.outCount) ∧
    (∀ (au : Bool) (p : Nat × Nat),
      (au = true ∧ (∃ k, autobaud (histogram s.w.runs) = some k ∧ p = (k, 1)) ∨
        au = false ∧ p = baudPeriod s.op) →
      ∃ t, move (.uart d par st au an) s = .next t ∧
        t.bpNum = BitVec.ofNat 32 p.1 ∧ t.bpDen = BitVec.ofNat 64 p.2 ∧ t.outCount = s.outCount ∧
        t.uartBslen = 0 ∧
        (s.cfg.bitsCap.toNat < streamLength s.cfg.uartTie p.1 p.2 s.w.runs →
          t.status = { busy := false, done := true, result := 5 }) ∧
        (streamLength s.cfg.uartTie p.1 p.2 s.w.runs ≤ s.cfg.bitsCap.toNat →
          t.status = s.status ∧ t.phase = .resample ∧ t.w.bits = [] ∧ t.w.bidx = [] ∧
          (∀ n, n ≤ streamLength s.cfg.uartTie p.1 p.2 s.w.runs →
            runMoves (move (.uart d par st au an)) n t = .next { t with w := { t.w with
              bits := (streamBits s.cfg.uartTie p.1 p.2 s.w.runs).take n
              bidx := (streamIndex s.cfg.uartTie p.1 p.2 s.w.runs).take n } }) ∧
          ∃ u, runMoves (move (.uart d par st au an)) (streamLength s.cfg.uartTie p.1 p.2 s.w.runs + 1) t = .next u ∧
            u.bpNum = t.bpNum ∧ u.bpDen = t.bpDen ∧ u.outCount = s.outCount ∧
            u.uartBslen = BitVec.ofNat 32 (streamLength s.cfg.uartTie p.1 p.2 s.w.runs) ∧
            (streamLength s.cfg.uartTie p.1 p.2 s.w.runs <
                1 + d.toNat + (if par = .none then 0 else 1) + (if st = true then 2 else 1) →
              u.status = { busy := false, done := true, result := 2 }) ∧
            (1 + d.toNat + (if par = .none then 0 else 1) + (if st = true then 2 else 1) ≤
                streamLength s.cfg.uartTie p.1 p.2 s.w.runs →
              u.phase = .search ∧ u.status = s.status ∧ u.w.o = 0 ∧ u.w.best = 0 ∧
              u.w.bestcnt = 0 ∧
              u.w.frame = 1 + d.toNat + (if par = .none then 0 else 1) + (if st = true then 2 else 1) ∧
              u.w.bits = streamBits s.cfg.uartTie p.1 p.2 s.w.runs ∧
              u.w.bidx = streamIndex s.cfg.uartTie p.1 p.2 s.w.runs)))

/-- The frame search selects the first offset of the window with the most start/stop matches (R121), and UART_OFFSET
and the frame pointer take it. That the search takes one micro-step per offset, with all its window checks, and one
more to end it is the model's choice (log entry 15). -/
def Obligations.SearchSelectsFirstBest : Prop :=
  ∀ (d : BitVec 4) (par : Parity) (st au an : Bool) (s : State),
    s.status.busy = true → s.phase = .search → s.w.o = 0 → s.w.best = 0 → s.w.bestcnt = 0 →
    0 < s.w.frame →
    ∃ t best, runMoves (move (.uart d par st au an))
        (max 1 (s.w.bits.length / s.cfg.uartSearchDiv) + 1) s = .next t ∧
      t.phase = .walk ∧ t.w.p = best ∧ t.uartOffset = BitVec.ofNat 32 best ∧
      best < max 1 (s.w.bits.length / s.cfg.uartSearchDiv) ∧
      (∀ o, o < max 1 (s.w.bits.length / s.cfg.uartSearchDiv) →
        matchCount s.w o ≤ matchCount s.w best) ∧
      (∀ o, o < best → matchCount s.w o < matchCount s.w best) ∧
      (∀ o, matchCount s.w o = (List.range s.w.bits.length).countP fun m =>
        decide (o + (m + 1) * s.w.frame ≤ s.w.bits.length ∧
          s.w.bits.getD (o + m * s.w.frame) false = false ∧
          s.w.bits.getD (o + m * s.w.frame + s.w.frame - 1) false = true))

/-- The frame walk at position p: past the last whole frame the operation ends; a window that fails the check moves
p by one bit and emits nothing; a verified frame emits START, D, PARITY when there is one, STOP over the
bit-to-sample map and moves p by F, and where OUT cannot hold them all the ones it can hold are written and the
operation ends with OUT_OVERFLOW (R122, R123, R124, R126, R139; full as in log entry 18). That the end is a micro-step
of its own is the model's choice (log entry 15). -/
def Obligations.FrameWalk : Prop :=
  ∀ (d : BitVec 4) (par : Parity) (st au an : Bool) (s : State) (ok pok q : Bool) (v : Nat)
    (bx : Nat → Nat) (as : List Annotation),
    s.phase = .walk →
    (ok = true ↔ s.w.bits.getD s.w.p false = false ∧
      s.w.bits.getD (s.w.p + s.w.frame - 1) false = true ∧
      (st = true → s.w.bits.getD (s.w.p + s.w.frame - 2) false = true)) →
    q = s.w.bits.getD (s.w.p + 1 + d.toNat) false →
    v = ((List.range d.toNat).map fun j => (s.w.bits.getD (s.w.p + 1 + j) false).toNat * 2 ^ j).sum →
    pok = parityOk par ((List.range d.toNat).map fun j => s.w.bits.getD (s.w.p + 1 + j) false) q →
    (∀ b, bx b = s.w.bidx.getD b s.n) →
    as =
      [{ label := .uartStart, colour := .event, start := bx s.w.p, stop := bx (s.w.p + 1), payload := .none },
       { label := .data, colour := if pok = true then .data else .error, start := bx (s.w.p + 1),
         stop := bx (s.w.p + 1 + d.toNat), payload := .int (BitVec.ofNat 32 v) d.toNat }] ++
      (if par = .none then [] else
        [{ label := .uartParity, colour := if pok = true then .data else .error,
           start := bx (s.w.p + 1 + d.toNat), stop := bx (s.w.p + 2 + d.toNat),
           payload := .int (BitVec.ofNat 32 q.toNat) 1 }]) ++
      [{ label := .uartStop, colour := .event,
         start := bx (s.w.p + s.w.frame - (if st = true then 2 else 1)), stop := bx (s.w.p + s.w.frame),
         payload := .none }] →
    (s.w.bits.length < s.w.p + s.w.frame →
      move (.uart d par st au an) s = .next (s.finish .ok)) ∧
    (s.w.p + s.w.frame ≤ s.w.bits.length → ok = false →
      move (.uart d par st au an) s = .next { s with w := { s.w with p := s.w.p + 1 } }) ∧
    (s.w.p + s.w.frame ≤ s.w.bits.length → ok = true → s.outCount.toNat + as.length ≤ s.cfg.outCap.toNat →
      move (.uart d par st au an) s = .next
        { as.foldl State.pushRecord s with w := { s.w with p := s.w.p + s.w.frame } }) ∧
    (s.w.p + s.w.frame ≤ s.w.bits.length → ok = true → s.cfg.outCap.toNat < s.outCount.toNat + as.length →
      move (.uart d par st au an) s = .next
        (((as.take (s.cfg.outCap.toNat - s.outCount.toNat)).foldl State.pushRecord s).finish .outOverflow))

/-- The parity outcome of each mode, and the data value, least significant bit first and below 2^D (R124, R125). -/
def Obligations.ParityAndDataValue : Prop :=
  (∀ (bs : List Bool) (q : Bool),
    (parityOk .odd bs q = true ↔ (bs.count true + q.toNat) % 2 = 1) ∧
    (parityOk .even bs q = true ↔ (bs.count true + q.toNat) % 2 = 0) ∧
    (parityOk .mark bs q = true ↔ q = true) ∧
    (parityOk .space bs q = true ↔ q = false) ∧
    parityOk .none bs q = true) ∧
  (∀ bs : List Bool,
    dataValue bs = ((List.range bs.length).map fun j => (bs.getD j false).toNat * 2 ^ j).sum ∧
    dataValue bs < 2 ^ bs.length)

/-- A whole UART operation on samples `xs`: RESULT and the diagnostic registers for every case. No repeated run length in
auto mode: EMPTY_NO_PERIOD. A bitstream above BITS_CAP: BITS_OVERFLOW. One shorter than a frame: EMPTY_TOO_SHORT.
Otherwise OK, or OUT_OVERFLOW with OUT full, and OK where OUT can hold a record per bit (R25, R113 to R121, R133,
R139, R140, R141). -/
def Obligations.UartOperationOutcome : Prop :=
  ∀ (d : BitVec 4) (par : Parity) (st au an : Bool) (s : State) (xs : List Bool),
    s.Ready (.uart d par st au an) → s.tainted = false → xs.length = s.n →
    (an = false → ∀ i, i < s.n → s.smp 0 i = .ok (xs.getD i false)) →
    (an = true → ∀ i, i < s.n → ∃ v, s.ach i = some v ∧
      (xs.getD i false = true ↔ ∃ t, thresholdOf ((List.range s.n).filterMap s.ach) = some t ∧ t < v)) →
    ∃ t : State, exec (.uart d par st au an) s = .next t ∧
      t.status.busy = false ∧ t.status.done = true ∧
      (au = true → autobaud (histogram (runsOf xs)) = none →
        t.status.result = 1 ∧ t.bpNum = 0 ∧ t.bpDen = 1 ∧ t.uartBslen = 0 ∧ t.uartOffset = 0 ∧
          t.outCount = 0) ∧
      (∀ p : Nat × Nat,
        (au = true ∧ (∃ k, autobaud (histogram (runsOf xs)) = some k ∧ p = (k, 1)) ∨
          au = false ∧ p = baudPeriod s.op) →
        t.bpNum = BitVec.ofNat 32 p.1 ∧ t.bpDen = BitVec.ofNat 64 p.2 ∧
        (s.cfg.bitsCap.toNat < streamLength s.cfg.uartTie p.1 p.2 (runsOf xs) →
          t.status.result = 5 ∧ t.uartBslen = 0 ∧ t.uartOffset = 0 ∧ t.outCount = 0) ∧
        (streamLength s.cfg.uartTie p.1 p.2 (runsOf xs) ≤ s.cfg.bitsCap.toNat →
          t.uartBslen.toNat = streamLength s.cfg.uartTie p.1 p.2 (runsOf xs) ∧
          (streamLength s.cfg.uartTie p.1 p.2 (runsOf xs) <
              1 + d.toNat + (if par = .none then 0 else 1) + (if st = true then 2 else 1) →
            t.status.result = 2 ∧ t.uartOffset = 0 ∧ t.outCount = 0) ∧
          (1 + d.toNat + (if par = .none then 0 else 1) + (if st = true then 2 else 1) ≤
              streamLength s.cfg.uartTie p.1 p.2 (runsOf xs) →
            t.uartOffset.toNat < max 1
              (streamLength s.cfg.uartTie p.1 p.2 (runsOf xs) / s.cfg.uartSearchDiv) ∧
            (t.status.result = 0 ∨ t.status.result = 4 ∧ t.outCount = s.cfg.outCap) ∧
            t.outCount.toNat ≤ s.cfg.outCap.toNat ∧
            t.outCount.toNat ≤ streamLength s.cfg.uartTie p.1 p.2 (runsOf xs) ∧
            (streamLength s.cfg.uartTie p.1 p.2 (runsOf xs) ≤ s.cfg.outCap.toNat → t.status.result = 0))))

/-! ## Start-marker widening (47_postprocess.md) -/

/-- After the last index the scan of SPI3, SPI4 and I2C goes on to the post-pass at record 0, and no other scan does:
EDGES, ONEWIRE and SYNC finish with OK. One post-pass step on record j: a zero-width S whose next stop marker is
record m is widened backward by that marker's width, not below the start of record j − 1 nor 0; any other record is
left alone; only START of record j can change. After the last record the operation finishes with OK (R128, R129,
R48). That the end of the scan and the end of the post-pass are micro-steps of their own is the model's choice (log
entry 15). -/
def Obligations.WidenOneRecord : Prop :=
  ∀ (i : Instr) (s : State),
    (widens i = true → s.phase = .scan → s.n ≤ s.w.i →
      move i s = .next { s with phase := .widen, w := { s.w with j := 0 } }) ∧
    (((∃ f k, i = .edges f k) ∨ i = .onewire ∨ ∃ c, i = .sync c) → s.phase = .scan → s.n ≤ s.w.i →
      move i s = .next (s.finish .ok)) ∧
    (widens i = true → s.phase = .widen → s.outCount.toNat ≤ s.w.j → move i s = .next (s.finish .ok)) ∧
    (widens i = true → s.phase = .widen → s.w.j < s.outCount.toNat →
      (∀ m, recLabel s.out s.w.j = 0x01 → recStart s.out s.w.j = recStop s.out s.w.j →
        s.w.j < m → m < s.outCount.toNat → recLabel s.out m = 0x02 →
        (∀ m', s.w.j < m' → m' < m → recLabel s.out m' ≠ 0x02) →
        move i s = .next { s with
          out := writeWord s.out (16 * s.w.j) (BitVec.ofNat 32
            (max (recStart s.out s.w.j - (recStop s.out m - recStart s.out m))
              (if 0 < s.w.j then recStart s.out (s.w.j - 1) else 0)))
          w := { s.w with j := s.w.j + 1 } }) ∧
      (recLabel s.out s.w.j ≠ 0x01 ∨ recStart s.out s.w.j ≠ recStop s.out s.w.j ∨
          (∀ m, s.w.j < m → m < s.outCount.toNat → recLabel s.out m ≠ 0x02) →
        move i s = .next { s with w := { s.w with j := s.w.j + 1 } }))

/-- The whole post-pass: it ends with OK, keeps the records in order, moves no start forward, and changes no END, no
label, no other field and not their number (R130). -/
def Obligations.WidenKeepsOrder : Prop :=
  ∀ (i : Instr) (s : State), widens i = true → s.status.busy = true → s.tainted = false →
    s.phase = .widen → s.w.j = 0 → Ordered s.out s.outCount.toNat →
    ∃ t : State, exec i s = .next t ∧ t.status = { busy := false, done := true, result := 0 } ∧
      t.outCount = s.outCount ∧ Ordered t.out t.outCount.toNat ∧
      ∀ k, k < t.outCount.toNat →
        recStart t.out k ≤ recStart s.out k ∧
        recordAt t.out k = { recordAt s.out k with start := recStart t.out k }
end

