-- ==== Sys2Proof/Laws/State.lean ====
section
/-! SUPPORT. One lemma per field per named update of State, each true by rfl. -/

namespace Sys2Proof.Machine

/-! ## clearOutputs -/

@[simp] theorem State.clearOutputs_cfg (s : State) :
    (s.clearOutputs).cfg = s.cfg := rfl

@[simp] theorem State.clearOutputs_cmd (s : State) :
    (s.clearOutputs).cmd = s.cmd := rfl

@[simp] theorem State.clearOutputs_len (s : State) :
    (s.clearOutputs).len = s.len := rfl

@[simp] theorem State.clearOutputs_spNum (s : State) :
    (s.clearOutputs).spNum = s.spNum := rfl

@[simp] theorem State.clearOutputs_spDen (s : State) :
    (s.clearOutputs).spDen = s.spDen := rfl

@[simp] theorem State.clearOutputs_baud (s : State) :
    (s.clearOutputs).baud = s.baud := rfl

@[simp] theorem State.clearOutputs_status (s : State) :
    (s.clearOutputs).status = s.status := rfl

@[simp] theorem State.clearOutputs_outCount (s : State) :
    (s.clearOutputs).outCount = 0 := rfl

@[simp] theorem State.clearOutputs_bpNum (s : State) :
    (s.clearOutputs).bpNum = 0 := rfl

@[simp] theorem State.clearOutputs_bpDen (s : State) :
    (s.clearOutputs).bpDen = 1 := rfl

@[simp] theorem State.clearOutputs_uartOffset (s : State) :
    (s.clearOutputs).uartOffset = 0 := rfl

@[simp] theorem State.clearOutputs_uartBslen (s : State) :
    (s.clearOutputs).uartBslen = 0 := rfl

@[simp] theorem State.clearOutputs_ch0 (s : State) :
    (s.clearOutputs).ch0 = s.ch0 := rfl

@[simp] theorem State.clearOutputs_ch1 (s : State) :
    (s.clearOutputs).ch1 = s.ch1 := rfl

@[simp] theorem State.clearOutputs_ch2 (s : State) :
    (s.clearOutputs).ch2 = s.ch2 := rfl

@[simp] theorem State.clearOutputs_ch3 (s : State) :
    (s.clearOutputs).ch3 = s.ch3 := rfl

@[simp] theorem State.clearOutputs_ach0 (s : State) :
    (s.clearOutputs).ach0 = s.ach0 := rfl

@[simp] theorem State.clearOutputs_out (s : State) :
    (s.clearOutputs).out = s.out := rfl

@[simp] theorem State.clearOutputs_op (s : State) :
    (s.clearOutputs).op = s.op := rfl

@[simp] theorem State.clearOutputs_phase (s : State) :
    (s.clearOutputs).phase = s.phase := rfl

@[simp] theorem State.clearOutputs_w (s : State) :
    (s.clearOutputs).w = s.w := rfl

@[simp] theorem State.clearOutputs_tainted (s : State) :
    (s.clearOutputs).tainted = s.tainted := rfl

@[simp] theorem State.clearOutputs_finishedOnce (s : State) :
    (s.clearOutputs).finishedOnce = s.finishedOnce := rfl

@[simp] theorem State.clearOutputs_script (s : State) :
    (s.clearOutputs).script = s.script := rfl

@[simp] theorem State.clearOutputs_hostData (s : State) :
    (s.clearOutputs).hostData = s.hostData := rfl

@[simp] theorem State.clearOutputs_free (s : State) :
    (s.clearOutputs).free = s.free := rfl

/-! ## startCommand -/

@[simp] theorem State.startCommand_cfg (s : State) (c : Word) :
    (s.startCommand c).cfg = s.cfg := rfl

@[simp] theorem State.startCommand_cmd (s : State) (c : Word) :
    (s.startCommand c).cmd = c := rfl

@[simp] theorem State.startCommand_len (s : State) (c : Word) :
    (s.startCommand c).len = s.len := rfl

@[simp] theorem State.startCommand_spNum (s : State) (c : Word) :
    (s.startCommand c).spNum = s.spNum := rfl

@[simp] theorem State.startCommand_spDen (s : State) (c : Word) :
    (s.startCommand c).spDen = s.spDen := rfl

@[simp] theorem State.startCommand_baud (s : State) (c : Word) :
    (s.startCommand c).baud = s.baud := rfl

@[simp] theorem State.startCommand_status (s : State) (c : Word) :
    (s.startCommand c).status = Status.running := rfl

@[simp] theorem State.startCommand_outCount (s : State) (c : Word) :
    (s.startCommand c).outCount = 0 := rfl

@[simp] theorem State.startCommand_bpNum (s : State) (c : Word) :
    (s.startCommand c).bpNum = 0 := rfl

@[simp] theorem State.startCommand_bpDen (s : State) (c : Word) :
    (s.startCommand c).bpDen = 1 := rfl

@[simp] theorem State.startCommand_uartOffset (s : State) (c : Word) :
    (s.startCommand c).uartOffset = 0 := rfl

@[simp] theorem State.startCommand_uartBslen (s : State) (c : Word) :
    (s.startCommand c).uartBslen = 0 := rfl

@[simp] theorem State.startCommand_ch0 (s : State) (c : Word) :
    (s.startCommand c).ch0 = s.ch0 := rfl

@[simp] theorem State.startCommand_ch1 (s : State) (c : Word) :
    (s.startCommand c).ch1 = s.ch1 := rfl

@[simp] theorem State.startCommand_ch2 (s : State) (c : Word) :
    (s.startCommand c).ch2 = s.ch2 := rfl

@[simp] theorem State.startCommand_ch3 (s : State) (c : Word) :
    (s.startCommand c).ch3 = s.ch3 := rfl

@[simp] theorem State.startCommand_ach0 (s : State) (c : Word) :
    (s.startCommand c).ach0 = s.ach0 := rfl

@[simp] theorem State.startCommand_out (s : State) (c : Word) :
    (s.startCommand c).out = s.out := rfl

@[simp] theorem State.startCommand_op (s : State) (c : Word) :
    (s.startCommand c).op = { n := s.len, spNum := s.spNum, spDen := s.spDen, baud := s.baud } := rfl

@[simp] theorem State.startCommand_phase (s : State) (c : Word) :
    (s.startCommand c).phase = Phase.start := rfl

@[simp] theorem State.startCommand_w (s : State) (c : Word) :
    (s.startCommand c).w = s.w := rfl

@[simp] theorem State.startCommand_tainted (s : State) (c : Word) :
    (s.startCommand c).tainted = false := rfl

@[simp] theorem State.startCommand_finishedOnce (s : State) (c : Word) :
    (s.startCommand c).finishedOnce = s.finishedOnce := rfl

@[simp] theorem State.startCommand_script (s : State) (c : Word) :
    (s.startCommand c).script = s.script := rfl

@[simp] theorem State.startCommand_hostData (s : State) (c : Word) :
    (s.startCommand c).hostData = s.hostData := rfl

@[simp] theorem State.startCommand_free (s : State) (c : Word) :
    (s.startCommand c).free = s.free := rfl

/-! ## owEnter -/

@[simp] theorem State.owEnter_cfg (s : State) (q : OwState) :
    (s.owEnter q).cfg = s.cfg := rfl

@[simp] theorem State.owEnter_cmd (s : State) (q : OwState) :
    (s.owEnter q).cmd = s.cmd := rfl

@[simp] theorem State.owEnter_len (s : State) (q : OwState) :
    (s.owEnter q).len = s.len := rfl

@[simp] theorem State.owEnter_spNum (s : State) (q : OwState) :
    (s.owEnter q).spNum = s.spNum := rfl

@[simp] theorem State.owEnter_spDen (s : State) (q : OwState) :
    (s.owEnter q).spDen = s.spDen := rfl

@[simp] theorem State.owEnter_baud (s : State) (q : OwState) :
    (s.owEnter q).baud = s.baud := rfl

@[simp] theorem State.owEnter_status (s : State) (q : OwState) :
    (s.owEnter q).status = s.status := rfl

@[simp] theorem State.owEnter_outCount (s : State) (q : OwState) :
    (s.owEnter q).outCount = s.outCount := rfl

@[simp] theorem State.owEnter_bpNum (s : State) (q : OwState) :
    (s.owEnter q).bpNum = s.bpNum := rfl

@[simp] theorem State.owEnter_bpDen (s : State) (q : OwState) :
    (s.owEnter q).bpDen = s.bpDen := rfl

@[simp] theorem State.owEnter_uartOffset (s : State) (q : OwState) :
    (s.owEnter q).uartOffset = s.uartOffset := rfl

@[simp] theorem State.owEnter_uartBslen (s : State) (q : OwState) :
    (s.owEnter q).uartBslen = s.uartBslen := rfl

@[simp] theorem State.owEnter_ch0 (s : State) (q : OwState) :
    (s.owEnter q).ch0 = s.ch0 := rfl

@[simp] theorem State.owEnter_ch1 (s : State) (q : OwState) :
    (s.owEnter q).ch1 = s.ch1 := rfl

@[simp] theorem State.owEnter_ch2 (s : State) (q : OwState) :
    (s.owEnter q).ch2 = s.ch2 := rfl

@[simp] theorem State.owEnter_ch3 (s : State) (q : OwState) :
    (s.owEnter q).ch3 = s.ch3 := rfl

@[simp] theorem State.owEnter_ach0 (s : State) (q : OwState) :
    (s.owEnter q).ach0 = s.ach0 := rfl

@[simp] theorem State.owEnter_out (s : State) (q : OwState) :
    (s.owEnter q).out = s.out := rfl

@[simp] theorem State.owEnter_op (s : State) (q : OwState) :
    (s.owEnter q).op = s.op := rfl

@[simp] theorem State.owEnter_phase (s : State) (q : OwState) :
    (s.owEnter q).phase = s.phase := rfl

@[simp] theorem State.owEnter_w (s : State) (q : OwState) :
    (s.owEnter q).w = { s.w with ow := q, entry := s.w.i } := rfl

@[simp] theorem State.owEnter_tainted (s : State) (q : OwState) :
    (s.owEnter q).tainted = s.tainted := rfl

@[simp] theorem State.owEnter_finishedOnce (s : State) (q : OwState) :
    (s.owEnter q).finishedOnce = s.finishedOnce := rfl

@[simp] theorem State.owEnter_script (s : State) (q : OwState) :
    (s.owEnter q).script = s.script := rfl

@[simp] theorem State.owEnter_hostData (s : State) (q : OwState) :
    (s.owEnter q).hostData = s.hostData := rfl

@[simp] theorem State.owEnter_free (s : State) (q : OwState) :
    (s.owEnter q).free = s.free := rfl

/-! ## pushRecord -/

@[simp] theorem State.pushRecord_cfg (s : State) (a : Annotation) :
    (s.pushRecord a).cfg = s.cfg := rfl

@[simp] theorem State.pushRecord_cmd (s : State) (a : Annotation) :
    (s.pushRecord a).cmd = s.cmd := rfl

@[simp] theorem State.pushRecord_len (s : State) (a : Annotation) :
    (s.pushRecord a).len = s.len := rfl

@[simp] theorem State.pushRecord_spNum (s : State) (a : Annotation) :
    (s.pushRecord a).spNum = s.spNum := rfl

@[simp] theorem State.pushRecord_spDen (s : State) (a : Annotation) :
    (s.pushRecord a).spDen = s.spDen := rfl

@[simp] theorem State.pushRecord_baud (s : State) (a : Annotation) :
    (s.pushRecord a).baud = s.baud := rfl

@[simp] theorem State.pushRecord_status (s : State) (a : Annotation) :
    (s.pushRecord a).status = s.status := rfl

@[simp] theorem State.pushRecord_outCount (s : State) (a : Annotation) :
    (s.pushRecord a).outCount = s.outCount + 1 := rfl

@[simp] theorem State.pushRecord_bpNum (s : State) (a : Annotation) :
    (s.pushRecord a).bpNum = s.bpNum := rfl

@[simp] theorem State.pushRecord_bpDen (s : State) (a : Annotation) :
    (s.pushRecord a).bpDen = s.bpDen := rfl

@[simp] theorem State.pushRecord_uartOffset (s : State) (a : Annotation) :
    (s.pushRecord a).uartOffset = s.uartOffset := rfl

@[simp] theorem State.pushRecord_uartBslen (s : State) (a : Annotation) :
    (s.pushRecord a).uartBslen = s.uartBslen := rfl

@[simp] theorem State.pushRecord_ch0 (s : State) (a : Annotation) :
    (s.pushRecord a).ch0 = s.ch0 := rfl

@[simp] theorem State.pushRecord_ch1 (s : State) (a : Annotation) :
    (s.pushRecord a).ch1 = s.ch1 := rfl

@[simp] theorem State.pushRecord_ch2 (s : State) (a : Annotation) :
    (s.pushRecord a).ch2 = s.ch2 := rfl

@[simp] theorem State.pushRecord_ch3 (s : State) (a : Annotation) :
    (s.pushRecord a).ch3 = s.ch3 := rfl

@[simp] theorem State.pushRecord_ach0 (s : State) (a : Annotation) :
    (s.pushRecord a).ach0 = s.ach0 := rfl

@[simp] theorem State.pushRecord_op (s : State) (a : Annotation) :
    (s.pushRecord a).op = s.op := rfl

@[simp] theorem State.pushRecord_phase (s : State) (a : Annotation) :
    (s.pushRecord a).phase = s.phase := rfl

@[simp] theorem State.pushRecord_w (s : State) (a : Annotation) :
    (s.pushRecord a).w = s.w := rfl

@[simp] theorem State.pushRecord_tainted (s : State) (a : Annotation) :
    (s.pushRecord a).tainted = s.tainted := rfl

@[simp] theorem State.pushRecord_finishedOnce (s : State) (a : Annotation) :
    (s.pushRecord a).finishedOnce = s.finishedOnce := rfl

@[simp] theorem State.pushRecord_script (s : State) (a : Annotation) :
    (s.pushRecord a).script = s.script := rfl

@[simp] theorem State.pushRecord_hostData (s : State) (a : Annotation) :
    (s.pushRecord a).hostData = s.hostData := rfl

@[simp] theorem State.pushRecord_free (s : State) (a : Annotation) :
    (s.pushRecord a).free = s.free := rfl

/-! ## setPeriod -/

@[simp] theorem State.setPeriod_cfg (s : State) (p : Nat × Nat) :
    (s.setPeriod p).cfg = s.cfg := rfl

@[simp] theorem State.setPeriod_cmd (s : State) (p : Nat × Nat) :
    (s.setPeriod p).cmd = s.cmd := rfl

@[simp] theorem State.setPeriod_len (s : State) (p : Nat × Nat) :
    (s.setPeriod p).len = s.len := rfl

@[simp] theorem State.setPeriod_spNum (s : State) (p : Nat × Nat) :
    (s.setPeriod p).spNum = s.spNum := rfl

@[simp] theorem State.setPeriod_spDen (s : State) (p : Nat × Nat) :
    (s.setPeriod p).spDen = s.spDen := rfl

@[simp] theorem State.setPeriod_baud (s : State) (p : Nat × Nat) :
    (s.setPeriod p).baud = s.baud := rfl

@[simp] theorem State.setPeriod_status (s : State) (p : Nat × Nat) :
    (s.setPeriod p).status = s.status := rfl

@[simp] theorem State.setPeriod_outCount (s : State) (p : Nat × Nat) :
    (s.setPeriod p).outCount = s.outCount := rfl

@[simp] theorem State.setPeriod_bpNum (s : State) (p : Nat × Nat) :
    (s.setPeriod p).bpNum = BitVec.ofNat 32 p.1 := rfl

@[simp] theorem State.setPeriod_bpDen (s : State) (p : Nat × Nat) :
    (s.setPeriod p).bpDen = BitVec.ofNat 64 p.2 := rfl

@[simp] theorem State.setPeriod_uartOffset (s : State) (p : Nat × Nat) :
    (s.setPeriod p).uartOffset = s.uartOffset := rfl

@[simp] theorem State.setPeriod_uartBslen (s : State) (p : Nat × Nat) :
    (s.setPeriod p).uartBslen = s.uartBslen := rfl

@[simp] theorem State.setPeriod_ch0 (s : State) (p : Nat × Nat) :
    (s.setPeriod p).ch0 = s.ch0 := rfl

@[simp] theorem State.setPeriod_ch1 (s : State) (p : Nat × Nat) :
    (s.setPeriod p).ch1 = s.ch1 := rfl

@[simp] theorem State.setPeriod_ch2 (s : State) (p : Nat × Nat) :
    (s.setPeriod p).ch2 = s.ch2 := rfl

@[simp] theorem State.setPeriod_ch3 (s : State) (p : Nat × Nat) :
    (s.setPeriod p).ch3 = s.ch3 := rfl

@[simp] theorem State.setPeriod_ach0 (s : State) (p : Nat × Nat) :
    (s.setPeriod p).ach0 = s.ach0 := rfl

@[simp] theorem State.setPeriod_out (s : State) (p : Nat × Nat) :
    (s.setPeriod p).out = s.out := rfl

@[simp] theorem State.setPeriod_op (s : State) (p : Nat × Nat) :
    (s.setPeriod p).op = s.op := rfl

@[simp] theorem State.setPeriod_phase (s : State) (p : Nat × Nat) :
    (s.setPeriod p).phase = s.phase := rfl

@[simp] theorem State.setPeriod_w (s : State) (p : Nat × Nat) :
    (s.setPeriod p).w = { s.w with pNum := p.1, pDen := p.2 } := rfl

@[simp] theorem State.setPeriod_tainted (s : State) (p : Nat × Nat) :
    (s.setPeriod p).tainted = s.tainted := rfl

@[simp] theorem State.setPeriod_finishedOnce (s : State) (p : Nat × Nat) :
    (s.setPeriod p).finishedOnce = s.finishedOnce := rfl

@[simp] theorem State.setPeriod_script (s : State) (p : Nat × Nat) :
    (s.setPeriod p).script = s.script := rfl

@[simp] theorem State.setPeriod_hostData (s : State) (p : Nat × Nat) :
    (s.setPeriod p).hostData = s.hostData := rfl

@[simp] theorem State.setPeriod_free (s : State) (p : Nat × Nat) :
    (s.setPeriod p).free = s.free := rfl

/-! ## beginWiden -/

@[simp] theorem State.beginWiden_cfg (s : State) :
    (s.beginWiden).cfg = s.cfg := rfl

@[simp] theorem State.beginWiden_cmd (s : State) :
    (s.beginWiden).cmd = s.cmd := rfl

@[simp] theorem State.beginWiden_len (s : State) :
    (s.beginWiden).len = s.len := rfl

@[simp] theorem State.beginWiden_spNum (s : State) :
    (s.beginWiden).spNum = s.spNum := rfl

@[simp] theorem State.beginWiden_spDen (s : State) :
    (s.beginWiden).spDen = s.spDen := rfl

@[simp] theorem State.beginWiden_baud (s : State) :
    (s.beginWiden).baud = s.baud := rfl

@[simp] theorem State.beginWiden_status (s : State) :
    (s.beginWiden).status = s.status := rfl

@[simp] theorem State.beginWiden_outCount (s : State) :
    (s.beginWiden).outCount = s.outCount := rfl

@[simp] theorem State.beginWiden_bpNum (s : State) :
    (s.beginWiden).bpNum = s.bpNum := rfl

@[simp] theorem State.beginWiden_bpDen (s : State) :
    (s.beginWiden).bpDen = s.bpDen := rfl

@[simp] theorem State.beginWiden_uartOffset (s : State) :
    (s.beginWiden).uartOffset = s.uartOffset := rfl

@[simp] theorem State.beginWiden_uartBslen (s : State) :
    (s.beginWiden).uartBslen = s.uartBslen := rfl

@[simp] theorem State.beginWiden_ch0 (s : State) :
    (s.beginWiden).ch0 = s.ch0 := rfl

@[simp] theorem State.beginWiden_ch1 (s : State) :
    (s.beginWiden).ch1 = s.ch1 := rfl

@[simp] theorem State.beginWiden_ch2 (s : State) :
    (s.beginWiden).ch2 = s.ch2 := rfl

@[simp] theorem State.beginWiden_ch3 (s : State) :
    (s.beginWiden).ch3 = s.ch3 := rfl

@[simp] theorem State.beginWiden_ach0 (s : State) :
    (s.beginWiden).ach0 = s.ach0 := rfl

@[simp] theorem State.beginWiden_out (s : State) :
    (s.beginWiden).out = s.out := rfl

@[simp] theorem State.beginWiden_op (s : State) :
    (s.beginWiden).op = s.op := rfl

@[simp] theorem State.beginWiden_phase (s : State) :
    (s.beginWiden).phase = Phase.widen := rfl

@[simp] theorem State.beginWiden_w (s : State) :
    (s.beginWiden).w = { s.w with j := 0 } := rfl

@[simp] theorem State.beginWiden_tainted (s : State) :
    (s.beginWiden).tainted = s.tainted := rfl

@[simp] theorem State.beginWiden_finishedOnce (s : State) :
    (s.beginWiden).finishedOnce = s.finishedOnce := rfl

@[simp] theorem State.beginWiden_script (s : State) :
    (s.beginWiden).script = s.script := rfl

@[simp] theorem State.beginWiden_hostData (s : State) :
    (s.beginWiden).hostData = s.hostData := rfl

@[simp] theorem State.beginWiden_free (s : State) :
    (s.beginWiden).free = s.free := rfl

/-! ## draw -/

@[simp] theorem State.draw_cfg (s : State) :
    (s.draw).cfg = s.cfg := rfl

@[simp] theorem State.draw_cmd (s : State) :
    (s.draw).cmd = s.cmd := rfl

@[simp] theorem State.draw_len (s : State) :
    (s.draw).len = s.len := rfl

@[simp] theorem State.draw_spNum (s : State) :
    (s.draw).spNum = s.spNum := rfl

@[simp] theorem State.draw_spDen (s : State) :
    (s.draw).spDen = s.spDen := rfl

@[simp] theorem State.draw_baud (s : State) :
    (s.draw).baud = s.baud := rfl

@[simp] theorem State.draw_status (s : State) :
    (s.draw).status = s.status := rfl

@[simp] theorem State.draw_outCount (s : State) :
    (s.draw).outCount = s.outCount := rfl

@[simp] theorem State.draw_bpNum (s : State) :
    (s.draw).bpNum = s.bpNum := rfl

@[simp] theorem State.draw_bpDen (s : State) :
    (s.draw).bpDen = s.bpDen := rfl

@[simp] theorem State.draw_uartOffset (s : State) :
    (s.draw).uartOffset = s.uartOffset := rfl

@[simp] theorem State.draw_uartBslen (s : State) :
    (s.draw).uartBslen = s.uartBslen := rfl

@[simp] theorem State.draw_ch0 (s : State) :
    (s.draw).ch0 = s.ch0 := rfl

@[simp] theorem State.draw_ch1 (s : State) :
    (s.draw).ch1 = s.ch1 := rfl

@[simp] theorem State.draw_ch2 (s : State) :
    (s.draw).ch2 = s.ch2 := rfl

@[simp] theorem State.draw_ch3 (s : State) :
    (s.draw).ch3 = s.ch3 := rfl

@[simp] theorem State.draw_ach0 (s : State) :
    (s.draw).ach0 = s.ach0 := rfl

@[simp] theorem State.draw_out (s : State) :
    (s.draw).out = s.out := rfl

@[simp] theorem State.draw_op (s : State) :
    (s.draw).op = s.op := rfl

@[simp] theorem State.draw_phase (s : State) :
    (s.draw).phase = s.phase := rfl

@[simp] theorem State.draw_w (s : State) :
    (s.draw).w = s.w := rfl

@[simp] theorem State.draw_tainted (s : State) :
    (s.draw).tainted = s.tainted := rfl

@[simp] theorem State.draw_finishedOnce (s : State) :
    (s.draw).finishedOnce = s.finishedOnce := rfl

@[simp] theorem State.draw_script (s : State) :
    (s.draw).script = s.script := rfl

@[simp] theorem State.draw_hostData (s : State) :
    (s.draw).hostData = s.hostData := rfl

@[simp] theorem State.draw_free (s : State) :
    (s.draw).free = s.free + 1 := rfl

/-! ## taintIfBusy -/

@[simp] theorem State.taintIfBusy_cfg (s : State) :
    (s.taintIfBusy).cfg = s.cfg := rfl

@[simp] theorem State.taintIfBusy_cmd (s : State) :
    (s.taintIfBusy).cmd = s.cmd := rfl

@[simp] theorem State.taintIfBusy_len (s : State) :
    (s.taintIfBusy).len = s.len := rfl

@[simp] theorem State.taintIfBusy_spNum (s : State) :
    (s.taintIfBusy).spNum = s.spNum := rfl

@[simp] theorem State.taintIfBusy_spDen (s : State) :
    (s.taintIfBusy).spDen = s.spDen := rfl

@[simp] theorem State.taintIfBusy_baud (s : State) :
    (s.taintIfBusy).baud = s.baud := rfl

@[simp] theorem State.taintIfBusy_status (s : State) :
    (s.taintIfBusy).status = s.status := rfl

@[simp] theorem State.taintIfBusy_outCount (s : State) :
    (s.taintIfBusy).outCount = s.outCount := rfl

@[simp] theorem State.taintIfBusy_bpNum (s : State) :
    (s.taintIfBusy).bpNum = s.bpNum := rfl

@[simp] theorem State.taintIfBusy_bpDen (s : State) :
    (s.taintIfBusy).bpDen = s.bpDen := rfl

@[simp] theorem State.taintIfBusy_uartOffset (s : State) :
    (s.taintIfBusy).uartOffset = s.uartOffset := rfl

@[simp] theorem State.taintIfBusy_uartBslen (s : State) :
    (s.taintIfBusy).uartBslen = s.uartBslen := rfl

@[simp] theorem State.taintIfBusy_ch0 (s : State) :
    (s.taintIfBusy).ch0 = s.ch0 := rfl

@[simp] theorem State.taintIfBusy_ch1 (s : State) :
    (s.taintIfBusy).ch1 = s.ch1 := rfl

@[simp] theorem State.taintIfBusy_ch2 (s : State) :
    (s.taintIfBusy).ch2 = s.ch2 := rfl

@[simp] theorem State.taintIfBusy_ch3 (s : State) :
    (s.taintIfBusy).ch3 = s.ch3 := rfl

@[simp] theorem State.taintIfBusy_ach0 (s : State) :
    (s.taintIfBusy).ach0 = s.ach0 := rfl

@[simp] theorem State.taintIfBusy_out (s : State) :
    (s.taintIfBusy).out = s.out := rfl

@[simp] theorem State.taintIfBusy_op (s : State) :
    (s.taintIfBusy).op = s.op := rfl

@[simp] theorem State.taintIfBusy_phase (s : State) :
    (s.taintIfBusy).phase = s.phase := rfl

@[simp] theorem State.taintIfBusy_w (s : State) :
    (s.taintIfBusy).w = s.w := rfl

@[simp] theorem State.taintIfBusy_tainted (s : State) :
    (s.taintIfBusy).tainted = (s.tainted || s.status.busy) := rfl

@[simp] theorem State.taintIfBusy_finishedOnce (s : State) :
    (s.taintIfBusy).finishedOnce = s.finishedOnce := rfl

@[simp] theorem State.taintIfBusy_script (s : State) :
    (s.taintIfBusy).script = s.script := rfl

@[simp] theorem State.taintIfBusy_hostData (s : State) :
    (s.taintIfBusy).hostData = s.hostData := rfl

@[simp] theorem State.taintIfBusy_free (s : State) :
    (s.taintIfBusy).free = s.free := rfl

/-! ## advance -/

@[simp] theorem State.advance_cfg (s : State) : s.advance.cfg = s.cfg := by
  unfold State.advance; split <;> rfl

@[simp] theorem State.advance_cmd (s : State) : s.advance.cmd = s.cmd := by
  unfold State.advance; split <;> rfl

@[simp] theorem State.advance_len (s : State) : s.advance.len = s.len := by
  unfold State.advance; split <;> rfl

@[simp] theorem State.advance_spNum (s : State) : s.advance.spNum = s.spNum := by
  unfold State.advance; split <;> rfl

@[simp] theorem State.advance_spDen (s : State) : s.advance.spDen = s.spDen := by
  unfold State.advance; split <;> rfl

@[simp] theorem State.advance_baud (s : State) : s.advance.baud = s.baud := by
  unfold State.advance; split <;> rfl

@[simp] theorem State.advance_status (s : State) : s.advance.status = s.status := by
  unfold State.advance; split <;> rfl

@[simp] theorem State.advance_outCount (s : State) : s.advance.outCount = s.outCount := by
  unfold State.advance; split <;> rfl

@[simp] theorem State.advance_bpNum (s : State) : s.advance.bpNum = s.bpNum := by
  unfold State.advance; split <;> rfl

@[simp] theorem State.advance_bpDen (s : State) : s.advance.bpDen = s.bpDen := by
  unfold State.advance; split <;> rfl

@[simp] theorem State.advance_uartOffset (s : State) : s.advance.uartOffset = s.uartOffset := by
  unfold State.advance; split <;> rfl

@[simp] theorem State.advance_uartBslen (s : State) : s.advance.uartBslen = s.uartBslen := by
  unfold State.advance; split <;> rfl

@[simp] theorem State.advance_ch0 (s : State) : s.advance.ch0 = s.ch0 := by
  unfold State.advance; split <;> rfl

@[simp] theorem State.advance_ch1 (s : State) : s.advance.ch1 = s.ch1 := by
  unfold State.advance; split <;> rfl

@[simp] theorem State.advance_ch2 (s : State) : s.advance.ch2 = s.ch2 := by
  unfold State.advance; split <;> rfl

@[simp] theorem State.advance_ch3 (s : State) : s.advance.ch3 = s.ch3 := by
  unfold State.advance; split <;> rfl

@[simp] theorem State.advance_ach0 (s : State) : s.advance.ach0 = s.ach0 := by
  unfold State.advance; split <;> rfl

@[simp] theorem State.advance_out (s : State) : s.advance.out = s.out := by
  unfold State.advance; split <;> rfl

@[simp] theorem State.advance_op (s : State) : s.advance.op = s.op := by
  unfold State.advance; split <;> rfl

@[simp] theorem State.advance_phase (s : State) : s.advance.phase = s.phase := by
  unfold State.advance; split <;> rfl

@[simp] theorem State.advance_tainted (s : State) : s.advance.tainted = s.tainted := by
  unfold State.advance; split <;> rfl

@[simp] theorem State.advance_finishedOnce (s : State) : s.advance.finishedOnce = s.finishedOnce := by
  unfold State.advance; split <;> rfl

@[simp] theorem State.advance_script (s : State) : s.advance.script = s.script := by
  unfold State.advance; split <;> rfl

@[simp] theorem State.advance_hostData (s : State) : s.advance.hostData = s.hostData := by
  unfold State.advance; split <;> rfl

@[simp] theorem State.advance_free (s : State) : s.advance.free = s.free := by
  unfold State.advance; split <;> rfl

/-- A step that has not ended the operation advances the position (10_state.md R17). -/
theorem State.advance_of_busy {s : State} (h : s.status.busy = true) :
    s.advance = { s with w := { s.w with i := s.w.i + 1 } } := by
  simp [State.advance, h]

/-- A step that has ended the operation leaves the state as `finish` left it. -/
theorem State.advance_of_not_busy {s : State} (h : s.status.busy = false) : s.advance = s := by
  simp [State.advance, h]

/-! ## finish -/

/-- `finish` of an operation during which the host wrote no slot (60 R138). -/
theorem State.finish_of_not_tainted {s : State} (h : s.tainted = false) (r : Result) :
    s.finish r = { s with status := .finished r, phase := .idle, w := Work.initial, finishedOnce := true } := by
  simp [State.finish, h]

@[simp] theorem State.finish_cfg (s : State) (r : Result) : (s.finish r).cfg = s.cfg := by
  unfold State.finish; split <;> rfl

@[simp] theorem State.finish_cmd (s : State) (r : Result) : (s.finish r).cmd = s.cmd := by
  unfold State.finish; split <;> rfl

@[simp] theorem State.finish_len (s : State) (r : Result) : (s.finish r).len = s.len := by
  unfold State.finish; split <;> rfl

@[simp] theorem State.finish_spNum (s : State) (r : Result) : (s.finish r).spNum = s.spNum := by
  unfold State.finish; split <;> rfl

@[simp] theorem State.finish_spDen (s : State) (r : Result) : (s.finish r).spDen = s.spDen := by
  unfold State.finish; split <;> rfl

@[simp] theorem State.finish_baud (s : State) (r : Result) : (s.finish r).baud = s.baud := by
  unfold State.finish; split <;> rfl

@[simp] theorem State.finish_ch0 (s : State) (r : Result) : (s.finish r).ch0 = s.ch0 := by
  unfold State.finish; split <;> rfl

@[simp] theorem State.finish_ch1 (s : State) (r : Result) : (s.finish r).ch1 = s.ch1 := by
  unfold State.finish; split <;> rfl

@[simp] theorem State.finish_ch2 (s : State) (r : Result) : (s.finish r).ch2 = s.ch2 := by
  unfold State.finish; split <;> rfl

@[simp] theorem State.finish_ch3 (s : State) (r : Result) : (s.finish r).ch3 = s.ch3 := by
  unfold State.finish; split <;> rfl

@[simp] theorem State.finish_ach0 (s : State) (r : Result) : (s.finish r).ach0 = s.ach0 := by
  unfold State.finish; split <;> rfl

@[simp] theorem State.finish_op (s : State) (r : Result) : (s.finish r).op = s.op := by
  unfold State.finish; split <;> rfl

@[simp] theorem State.finish_phase (s : State) (r : Result) : (s.finish r).phase = Phase.idle := by
  unfold State.finish; split <;> rfl

@[simp] theorem State.finish_w (s : State) (r : Result) : (s.finish r).w = Work.initial := by
  unfold State.finish; split <;> rfl

@[simp] theorem State.finish_finishedOnce (s : State) (r : Result) : (s.finish r).finishedOnce = true := by
  unfold State.finish; split <;> rfl

@[simp] theorem State.finish_script (s : State) (r : Result) : (s.finish r).script = s.script := by
  unfold State.finish; split <;> rfl

@[simp] theorem State.finish_hostData (s : State) (r : Result) : (s.finish r).hostData = s.hostData := by
  unfold State.finish; split <;> rfl

@[simp] theorem State.finish_busy (s : State) (r : Result) : (s.finish r).status.busy = false := by
  unfold State.finish; split <;> rfl

@[simp] theorem State.finish_done (s : State) (r : Result) : (s.finish r).status.done = true := by
  unfold State.finish; split <;> rfl

@[simp] theorem State.finish_tainted (s : State) (r : Result) : (s.finish r).tainted = false := by
  unfold State.finish
  split
  · rfl
  · simp_all

end Sys2Proof.Machine
end

