-- ==== Sys2Proof/Laws/Store.lean ====
section
/-! SUPPORT. Laws of the stores and byte memories: read after write, frames, and the canonical form. -/

namespace Sys2Proof.Machine

variable {α : Type}

/-! ## Read after write -/

theorem storeRead_storeWrite_same (m : List (Nat × α)) (a : Nat) (v : α) :
    storeRead (storeWrite m a v) a = some v := by
  induction m with
  | nil => simp [storeWrite, storeRead]
  | cons e m ih =>
    obtain ⟨k, x⟩ := e
    simp only [storeWrite]
    split
    · simp [storeRead]
    · split
      · simp [storeRead]
      · rename_i h; simp [storeRead, h, ih]

theorem storeRead_storeWrite_other (m : List (Nat × α)) {a b : Nat} (v : α) (h : b ≠ a) :
    storeRead (storeWrite m a v) b = storeRead m b := by
  induction m with
  | nil => simp [storeWrite, storeRead, h]
  | cons e m ih =>
    obtain ⟨k, x⟩ := e
    simp only [storeWrite]
    split
    · simp [storeRead, h]
    · split
      · rename_i hk; subst hk; simp [storeRead, h]
      · simp [storeRead, ih]

theorem storeRead_storeWrite (m : List (Nat × α)) (a b : Nat) (v : α) :
    storeRead (storeWrite m a v) b = if b = a then some v else storeRead m b := by
  split
  · rename_i h; subst h; exact storeRead_storeWrite_same m b v
  · rename_i h; exact storeRead_storeWrite_other m v h

/-! ## The canonical form -/

/-- Every key of `m` is above `k`, in the form the induction needs: the first one is. -/
theorem storeWf_cons (k : Nat) (x : α) (m : List (Nat × α)) :
    storeWf ((k, x) :: m) = true ↔ (∀ e ∈ m.head?, k < e.1) ∧ storeWf m = true := by
  cases m with
  | nil => simp [storeWf]
  | cons e m => obtain ⟨l, y⟩ := e; simp [storeWf]

theorem storeWrite_head (m : List (Nat × α)) (a : Nat) (v : α) (k : Nat)
    (hm : ∀ e ∈ m.head?, k < e.1) (ha : k < a) : ∀ e ∈ (storeWrite m a v).head?, k < e.1 := by
  cases m with
  | nil => simpa [storeWrite] using ha
  | cons e m =>
    obtain ⟨l, y⟩ := e
    simp only [storeWrite]
    simp at hm
    split
    · simpa using ha
    · split <;> simpa using by omega

/-- A write keeps the canonical form. -/
theorem storeWf_storeWrite (m : List (Nat × α)) (a : Nat) (v : α) (h : storeWf m = true) :
    storeWf (storeWrite m a v) = true := by
  induction m with
  | nil => simp [storeWrite, storeWf]
  | cons e m ih =>
    obtain ⟨k, x⟩ := e
    rw [storeWf_cons] at h
    simp only [storeWrite]
    split
    · rename_i hk
      rw [storeWf_cons]
      exact ⟨by simpa using hk, (storeWf_cons k x m).2 h⟩
    · split
      · rename_i hk
        subst hk
        exact (storeWf_cons _ v m).2 h
      · rw [storeWf_cons]
        exact ⟨storeWrite_head m a v k h.1 (by omega), ih h.2⟩

theorem storeWf_range_map (n : Nat) (f : Nat → α) :
    storeWf ((List.range n).map fun a => (a, f a)) = true := by
  have key : ∀ n k, storeWf ((List.range' k n).map fun a => (a, f a)) = true := by
    intro n
    induction n with
    | zero => intro k; rfl
    | succ n ih =>
      intro k
      rw [List.range'_succ, List.map_cons, storeWf_cons]
      refine ⟨?_, ih (k + 1)⟩
      cases n with
      | zero => simp
      | succ n => simp [List.range'_succ]
  rw [List.range_eq_range']
  exact key n 0

/-! ## Words in memory -/

/-- Every byte outside the four of a word write reads as before. -/
theorem storeRead_writeWord_other (m : Mem) {a b : Nat} (v : Word) (h : b < a ∨ a + 4 ≤ b) :
    storeRead (writeWord m a v) b = storeRead m b := by
  unfold writeWord
  rw [storeRead_storeWrite_other _ _ (by omega), storeRead_storeWrite_other _ _ (by omega),
    storeRead_storeWrite_other _ _ (by omega), storeRead_storeWrite_other _ _ (by omega)]

/-- The four bytes of a word write, least significant first (20_memory.md R44). -/
theorem storeRead_writeWord_same (m : Mem) (a : Nat) (v : Word) (i : Nat) (h : i < 4) :
    storeRead (writeWord m a v) (a + i) = some (v.extractLsb' (8 * i) 8) := by
  unfold writeWord
  obtain rfl | rfl | rfl | rfl : i = 0 ∨ i = 1 ∨ i = 2 ∨ i = 3 := by omega
  all_goals simp [storeRead_storeWrite]

theorem byteAt_writeWord_other (m : Mem) {a b : Nat} (v : Word) (h : b < a ∨ a + 4 ≤ b) :
    byteAt (writeWord m a v) b = byteAt m b := by
  simp [byteAt, storeRead_writeWord_other m v h]

theorem byteAt_writeWord_same (m : Mem) (a : Nat) (v : Word) (i : Nat) (h : i < 4) :
    byteAt (writeWord m a v) (a + i) = v.extractLsb' (8 * i) 8 := by
  simp [byteAt, storeRead_writeWord_same m a v i h]

/-- A word reads back as it was written. -/
theorem wordAt_writeWord_same (m : Mem) (a : Nat) (v : Word) : wordAt (writeWord m a v) a = v := by
  have h0 := byteAt_writeWord_same m a v 0 (by decide)
  have h1 := byteAt_writeWord_same m a v 1 (by decide)
  have h2 := byteAt_writeWord_same m a v 2 (by decide)
  have h3 := byteAt_writeWord_same m a v 3 (by decide)
  simp only [Nat.add_zero] at h0
  unfold wordAt
  rw [h0, h1, h2, h3]
  apply BitVec.eq_of_getLsbD_eq
  intro i hi
  simp only [BitVec.getLsbD_append, BitVec.getLsbD_extractLsb']
  by_cases hi0 : i < 8
  · simp [hi0]
  by_cases hi1 : i < 16
  · have : i - 8 < 8 := by omega
    simp [hi0, this, show 8 + (i - 8) = i by omega]
  by_cases hi2 : i < 24
  · have a1 : ¬ i - 8 < 8 := by omega
    have a2 : i - 8 - 8 < 8 := by omega
    simp [hi0, a1, a2, show 16 + (i - 8 - 8) = i by omega]
  · have a1 : ¬ i - 8 < 8 := by omega
    have a2 : ¬ i - 8 - 8 < 8 := by omega
    have a3 : i - 8 - 8 - 8 < 8 := by omega
    simp [hi0, a1, a2, a3, show 24 + (i - 8 - 8 - 8) = i by omega]

/-- A word apart from the one written reads as before. -/
theorem wordAt_writeWord_other (m : Mem) {a b : Nat} (v : Word) (h : b + 4 ≤ a ∨ a + 4 ≤ b) :
    wordAt (writeWord m a v) b = wordAt m b := by
  unfold wordAt
  rw [byteAt_writeWord_other _ _ (by omega), byteAt_writeWord_other _ _ (by omega),
    byteAt_writeWord_other _ _ (by omega), byteAt_writeWord_other _ _ (by omega)]

theorem storeWf_writeWord (m : Mem) (a : Nat) (v : Word) (h : m.wf = true) : (writeWord m a v).wf = true := by
  unfold writeWord Mem.wf at *
  exact storeWf_storeWrite _ _ _ (storeWf_storeWrite _ _ _ (storeWf_storeWrite _ _ _
    (storeWf_storeWrite _ _ _ h)))

/-- The little-endian number in `n` bytes depends on those bytes alone. -/
theorem bytesAt_congr {m m' : Mem} : ∀ (n a : Nat), (∀ x, a ≤ x → x < a + n → storeRead m x = storeRead m' x) →
    bytesAt m n a = bytesAt m' n a
  | 0, _, _ => rfl
  | n + 1, a, h => by
    simp only [bytesAt]
    rw [h a (by omega) (by omega), bytesAt_congr n (a + 1) fun x h1 h2 => h x (by omega) (by omega)]

end Sys2Proof.Machine
end

