-- ==== Sys2Proof/Laws/Ops.lean ====
section
/-! SUPPORT. What each shared operation can do, said once: sample reads, emit, micro-steps of a scan, the first micro-step, and running
micro-steps to the end. -/

namespace Sys2Proof.Machine

/-! ## Sample reads -/

theorem sampleIn_of_covered {m : Mem} {n j : Nat} (h : covered m n = true) (hj : j < n) :
    ∃ b, sampleIn m j = some b := by
  simp only [covered, List.all_eq_true, List.mem_range] at h
  have := h (j / 8) (by omega)
  obtain ⟨b, hb⟩ := Option.isSome_iff_exists.1 this
  exact ⟨_, by simp only [sampleIn, hb, Option.map_some]; rfl⟩

/-- A written slot answers every sample read below N (20_memory.md R41). -/
theorem smp_of_samplesWritten {i : Instr} {s : State} {k : BitVec 2} {j : Nat}
    (h : samplesWritten i s = true) (hk : k ∈ opSlots i) (hj : j < s.n) :
    ∃ b, s.smp k j = .ok b := by
  simp only [samplesWritten, Bool.and_eq_true, List.all_eq_true] at h
  obtain ⟨b, hb⟩ := sampleIn_of_covered (h.1 k hk) hj
  exact ⟨b, by simp [State.smp, hj, hb]⟩

theorem levels_of_smp {s : State} {k : BitVec 2} {i : Nat} {p c : Bool} (hp : s.smp k (i - 1) = .ok p)
    (hc : s.smp k i = .ok c) : s.levels k i = .ok (p, c) := by
  simp only [State.levels, hp, hc]; rfl

theorem levels_eq_ok {s : State} {k : BitVec 2} {i : Nat} {l : Bool × Bool} (h : s.levels k i = .ok l) :
    s.smp k (i - 1) = .ok l.1 ∧ s.smp k i = .ok l.2 := by
  unfold State.levels at h
  cases hp : s.smp k (i - 1) with
  | error e => rw [hp] at h; cases h
  | ok p =>
    cases hc : s.smp k i with
    | error e => rw [hp, hc] at h; cases h
    | ok c => rw [hp, hc] at h; cases h; exact ⟨rfl, rfl⟩

theorem levels_of_samplesWritten {i : Instr} {s : State} {k : BitVec 2} {j : Nat}
    (h : samplesWritten i s = true) (hk : k ∈ opSlots i) (hj : j < s.n) :
    ∃ l, s.levels k j = .ok l := by
  obtain ⟨p, hp⟩ := smp_of_samplesWritten h hk (show j - 1 < s.n by omega)
  obtain ⟨c, hc⟩ := smp_of_samplesWritten h hk hj
  exact ⟨_, levels_of_smp hp hc⟩

/-! ## Emit -/

theorem emitAll_nil (s : State) (k : State → State) : State.emitAll [] s k = k s := rfl

theorem emitAll_room {s : State} (a : Annotation) (as : List Annotation) (k : State → State)
    (h : s.Room) : State.emitAll (a :: as) s k = State.emitAll as (s.pushRecord a) k := by
  simp [State.emitAll, h]

theorem emitAll_full {s : State} (a : Annotation) (as : List Annotation) (k : State → State)
    (h : ¬ s.Room) : State.emitAll (a :: as) s k = s.finish .outOverflow := by
  have h' : ¬ s.outCount.toNat < s.cfg.outCap.toNat := h
  simp [State.emitAll, h']

theorem emit_room {s : State} (a : Annotation) (k : State → State) (h : s.Room) :
    s.emit a k = k (s.pushRecord a) := by
  exact emitAll_room a [] k h

theorem emit_full {s : State} (a : Annotation) (k : State → State) (h : ¬ s.Room) :
    s.emit a k = s.finish .outOverflow := emitAll_full a [] k h

/-- Whatever a record written with room, the continuation and an overflow keep, an emit keeps. -/
theorem emitAll_preserves {P : State → Prop} {k : State → State}
    (hpush : ∀ s a, P s → s.Room → P (s.pushRecord a)) (hk : ∀ s, P s → P (k s))
    (hfin : ∀ s, P s → P (s.finish .outOverflow)) :
    ∀ (as : List Annotation) (s : State), P s → P (State.emitAll as s k)
  | [], s, h => hk s h
  | a :: as, s, h => by
    by_cases hr : s.Room
    · rw [emitAll_room _ _ _ hr]
      exact emitAll_preserves hpush hk hfin as _ (hpush s a h hr)
    · rw [emitAll_full _ _ _ hr]
      exact hfin s h

/-- A record written with room is counted without wrapping. -/
theorem pushRecord_count {s : State} (a : Annotation) (h : s.Room) :
    (s.pushRecord a).outCount.toNat = s.outCount.toNat + 1 := by
  have h' : s.outCount.toNat < s.cfg.outCap.toNat := h
  have := s.cfg.outCap.isLt
  rw [State.pushRecord_outCount, BitVec.toNat_add]
  change (s.outCount.toNat + 1) % 2 ^ 32 = s.outCount.toNat + 1
  omega

/-- The bytes of OUT outside the record written read as before (20_memory.md R47). -/
theorem storeRead_pushRecord_other (s : State) (a : Annotation) {x : Nat}
    (h : x < 16 * s.outCount.toNat ∨ 16 * s.outCount.toNat + 16 ≤ x) :
    storeRead (s.pushRecord a).out x = storeRead s.out x := by
  simp only [State.pushRecord]
  rw [storeRead_writeWord_other _ _ (by omega), storeRead_writeWord_other _ _ (by omega),
    storeRead_writeWord_other _ _ (by omega), storeRead_writeWord_other _ _ (by omega)]

theorem wordAt_pushRecord_other (s : State) (a : Annotation) {x : Nat}
    (h : x + 4 ≤ 16 * s.outCount.toNat ∨ 16 * s.outCount.toNat + 16 ≤ x) :
    wordAt (s.pushRecord a).out x = wordAt s.out x := by
  simp only [State.pushRecord]
  rw [wordAt_writeWord_other _ _ (by omega), wordAt_writeWord_other _ _ (by omega),
    wordAt_writeWord_other _ _ (by omega), wordAt_writeWord_other _ _ (by omega)]

/-- The four words of the record written (30_encoding.md R68). -/
theorem wordAt_pushRecord_start (s : State) (a : Annotation) :
    wordAt (s.pushRecord a).out (16 * s.outCount.toNat) = BitVec.ofNat 32 a.start := by
  simp only [State.pushRecord]
  rw [wordAt_writeWord_other _ _ (by omega), wordAt_writeWord_other _ _ (by omega),
    wordAt_writeWord_other _ _ (by omega), wordAt_writeWord_same]

theorem wordAt_pushRecord_stop (s : State) (a : Annotation) :
    wordAt (s.pushRecord a).out (16 * s.outCount.toNat + 4) = BitVec.ofNat 32 a.stop := by
  simp only [State.pushRecord]
  rw [wordAt_writeWord_other _ _ (by omega), wordAt_writeWord_other _ _ (by omega),
    wordAt_writeWord_same]

theorem wordAt_pushRecord_tag (s : State) (a : Annotation) :
    wordAt (s.pushRecord a).out (16 * s.outCount.toNat + 8) = a.tagWord := by
  simp only [State.pushRecord]
  rw [wordAt_writeWord_other _ _ (by omega), wordAt_writeWord_same]

theorem wordAt_pushRecord_value (s : State) (a : Annotation) :
    wordAt (s.pushRecord a).out (16 * s.outCount.toNat + 12) = a.payload.value := by
  simp only [State.pushRecord]
  rw [wordAt_writeWord_same]

/-- A record keeps the canonical form of OUT. -/
theorem wf_pushRecord {s : State} (a : Annotation) (h : s.out.wf = true) :
    (s.pushRecord a).out.wf = true :=
  storeWf_writeWord _ _ _ (storeWf_writeWord _ _ _ (storeWf_writeWord _ _ _ (storeWf_writeWord _ _ _ h)))

/-- An index word with room: written at 4 · OUT_COUNT and counted (20_memory.md R49). -/
theorem emitIndex_room {s : State} (v : Nat) (k : State → State) (h : s.outCount.toNat < 4 * s.cfg.outCap.toNat) :
    s.emitIndex v k = k { s with
      out := writeWord s.out (4 * s.outCount.toNat) (BitVec.ofNat 32 v)
      outCount := s.outCount + 1 } := by
  simp [State.emitIndex, h]

theorem emitIndex_full {s : State} (v : Nat) (k : State → State) (h : ¬ s.outCount.toNat < 4 * s.cfg.outCap.toNat) :
    s.emitIndex v k = s.finish .outOverflow := by
  simp [State.emitIndex, h]

/-- Entry into error handling with room (60 R134): the ERROR record over [s, i), then Idle with `s <- i`. -/
theorem protocolError_room {s : State} (l : Label) (h : s.Room) :
    s.protocolError l =
      (s.pushRecord { label := l, colour := .error, start := s.w.entry, stop := s.w.i, payload := .none }).owEnter .idle :=
  emit_room _ _ h

theorem protocolError_full {s : State} (l : Label) (h : ¬ s.Room) : s.protocolError l = s.finish .outOverflow :=
  emit_full _ _ h

/-! ## finish -/

/-- `finish` of a spoiled operation (93 I3). -/
theorem finish_spoiled {s : State} (r : Result) (h : s.tainted = true) :
    s.finish r = ({ s with status := .finished r, phase := .idle, w := Work.initial, finishedOnce := true }).scramble := by
  simp [State.finish, h]

/-- `finish` keeps the canonical form of OUT, spoiled operation or not. -/
theorem wf_finish {s : State} (r : Result) (h : s.out.wf = true) : (s.finish r).out.wf = true := by
  unfold State.finish
  split
  · exact storeWf_range_map _ _
  · exact h

/-- After `finish`, RESULT is one of the codes the block produces (93 I9). -/
theorem finish_result_le (s : State) (r : Result) : (s.finish r).status.result.toNat ≤ 5 := by
  unfold State.finish
  split
  · simp only [State.scramble, BitVec.toNat_ofNat]
    omega
  · show (Status.finished r).result.toNat ≤ 5
    cases r <;> decide

/-- The working registers are discarded at `finish`: what they held does not matter (60 R138). -/
@[simp] theorem finish_work (s : State) (w : Work) (r : Result) : ({ s with w := w }).finish r = s.finish r := rfl

/-! ## A step that emits -/

theorem emitThen_room {s : State} (a : Annotation) (w : Work) (h : s.Room) :
    s.emitThen a w = { s.pushRecord a with w := w } := by
  have h' : s.outCount.toNat < s.cfg.outCap.toNat := h
  simp [State.emitThen, h']

theorem emitThen_full {s : State} (a : Annotation) (w : Work) (h : ¬ s.Room) : s.emitThen a w = s.finish .outOverflow := by
  have h' : ¬ s.outCount.toNat < s.cfg.outCap.toNat := h
  simp [State.emitThen, h']

/-- An emit from any working registers, which then leaves them at `w` (20_memory.md R47, 60 R139). -/
theorem emit_eq_emitThen (s : State) (v w : Work) (a : Annotation) :
    ({ s with w := v }).emit a (fun t => { t with w := w }) = s.emitThen a w := by
  by_cases h : s.Room
  · rw [emit_room (s := { s with w := v }) a _ h, emitThen_room a w h]; rfl
  · rw [emit_full (s := { s with w := v }) a _ h, emitThen_full a w h]; rfl

/-- What a scan makes of a step that emits: `pc <- i + 1` only if the operation goes on (10_state.md R17). -/
theorem emitThen_advance {s : State} (a : Annotation) (w : Work) (h : s.status.busy = true) :
    (s.emitThen a w).advance = s.emitThen a { w with i := w.i + 1 } := by
  by_cases hr : s.Room
  · rw [emitThen_room _ _ hr, emitThen_room _ _ hr]; simp [State.advance, State.pushRecord, h]
  · rw [emitThen_full _ _ hr, emitThen_full _ _ hr]
    simp [State.advance]

/-! ## Micro-steps -/

/-- What a micro-step of a scan can answer. -/
theorem scanMove_next {stepAt : State → Except Fault State} {atEnd : State → State} {s t : State}
    (h : scanMove stepAt atEnd s = .next t) :
    (s.w.i < s.n ∧ ∃ u, stepAt s = .ok u ∧ t = u.advance) ∨ (s.n ≤ s.w.i ∧ t = atEnd s) := by
  unfold scanMove at h
  split at h
  · rename_i hi
    cases hu : stepAt s with
    | error e => rw [hu] at h; cases h
    | ok u => rw [hu] at h; cases h; exact .inl ⟨hi, u, rfl, rfl⟩
  · cases h; exact .inr ⟨by omega, rfl⟩

theorem scanMove_of_lt {stepAt : State → Except Fault State} {atEnd : State → State} {s u : State}
    (hi : s.w.i < s.n) (hu : stepAt s = .ok u) : scanMove stepAt atEnd s = .next u.advance := by
  simp [scanMove, hi, hu]

theorem scanMove_of_ge {stepAt : State → Except Fault State} {atEnd : State → State} {s : State}
    (hi : s.n ≤ s.w.i) : scanMove stepAt atEnd s = .next (atEnd s) := by
  simp [scanMove, Nat.not_lt.2 hi]

theorem scanMove_not_refused {stepAt : State → Except Fault State} {atEnd : State → State} {s : State}
    {r : Refusal} : scanMove stepAt atEnd s ≠ .refused r := by
  unfold scanMove
  split
  · split <;> simp
  · simp

/-- What the first micro-step of an operation can answer (60 R136). -/
theorem startMove_next {i : Instr} {enter : State → State} {s t : State}
    (h : startMove i enter s = .next t) :
    (legal i s = true ∧ samplesWritten i s = true ∧
      t = enter { s.clearOutputs with w := Work.initial, phase := .scan }) ∨
    (legal i s = false ∧ t = s.clearOutputs.refuse) := by
  unfold startMove at h
  simp only at h
  split at h
  · rename_i hl
    split at h
    · rename_i hw; cases h; exact .inl ⟨hl, hw, rfl⟩
    · cases h
  · rename_i hl
    cases h
    exact .inr ⟨by simpa [legal] using hl, rfl⟩

/-- The first micro-step of a legal operation whose samples are written (60 R136). -/
theorem startMove_of_ready {i : Instr} {enter : State → State} {s : State} (hl : legal i s = true)
    (hw : samplesWritten i s = true) :
    startMove i enter s = .next (enter { s.clearOutputs with w := Work.initial, phase := .scan }) := by
  have h1 : legal i s.clearOutputs = true := hl
  have h2 : samplesWritten i s.clearOutputs = true := hw
  simp [startMove, h1, h2]

/-- The first micro-step of an illegal command (60 R137). -/
theorem startMove_of_illegal {i : Instr} {enter : State → State} {s : State} (hl : legal i s = false) :
    startMove i enter s = .next s.clearOutputs.refuse := by
  have h1 : legal i s.clearOutputs = false := hl
  simp [startMove, h1]

/-- The first micro-step of a legal operation with a sample missing (70 R151). -/
theorem startMove_of_unwritten {i : Instr} {enter : State → State} {s : State} (hl : legal i s = true)
    (hw : samplesWritten i s = false) : startMove i enter s = .fault .unwrittenSample := by
  have h1 : legal i s.clearOutputs = true := hl
  have h2 : samplesWritten i s.clearOutputs = false := hw
  simp [startMove, h1, h2]

/-! ## Running micro-steps -/

theorem runMoves_zero (move : State → Host.Outcome State Fault Refusal) (s : State) :
    runMoves move 0 s = .next s := rfl

theorem runMoves_of_idle (move : State → Host.Outcome State Fault Refusal) (fuel : Nat) {s : State}
    (h : s.status.busy = false) : runMoves move fuel s = .next s := by
  cases fuel <;> simp [runMoves, h]

theorem runMoves_succ {move : State → Host.Outcome State Fault Refusal} {fuel : Nat} {s t : State}
    (h : s.status.busy = true) (hm : move s = .next t) :
    runMoves move (fuel + 1) s = runMoves move fuel t := by
  simp [runMoves, h, hm]

/-- Whatever every micro-step of a busy state keeps, a run keeps. -/
theorem runMoves_keeps {move : State → Host.Outcome State Fault Refusal} {P : State → Prop}
    (hkeep : ∀ s t, s.status.busy = true → P s → move s = .next t → P t) :
    ∀ (fuel : Nat) (s t : State), P s → runMoves move fuel s = .next t → P t
  | 0, s, t, hs, h => by cases h; exact hs
  | fuel + 1, s, t, hs, h => by
    cases hb : s.status.busy with
    | false => rw [runMoves_of_idle _ _ hb] at h; cases h; exact hs
    | true =>
      cases hm : move s with
      | next u =>
        rw [runMoves_succ hb hm] at h
        exact runMoves_keeps hkeep fuel u t (hkeep s u hb hs hm) h
      | fault f => simp [runMoves, hb, hm] at h
      | refused r => simp [runMoves, hb, hm] at h

/-- A run whose every micro-step answers and brings a measure down reaches the end of the operation. -/
theorem runMoves_finishes {move : State → Host.Outcome State Fault Refusal} {P : State → Prop}
    (μ : State → Nat)
    (hstep : ∀ s, s.status.busy = true → P s →
      ∃ t, move s = .next t ∧ P t ∧ (t.status.busy = true → μ t < μ s)) :
    ∀ (fuel : Nat) (s : State), P s → μ s < fuel →
      ∃ t, runMoves move fuel s = .next t ∧ P t ∧ t.status.busy = false
  | 0, s, _, h => by omega
  | fuel + 1, s, hs, h => by
    cases hb : s.status.busy with
    | false => exact ⟨s, runMoves_of_idle _ _ hb, hs, hb⟩
    | true =>
      obtain ⟨t, hm, ht, hμ⟩ := hstep s hb hs
      rw [runMoves_succ hb hm]
      cases hbt : t.status.busy with
      | false => exact ⟨t, runMoves_of_idle _ _ hbt, ht, hbt⟩
      | true => exact runMoves_finishes μ hstep fuel t ht (by have := hμ hbt; omega)

/-- A run splits at any number of micro-steps. -/
theorem runMoves_add {move : State → Host.Outcome State Fault Refusal} :
    ∀ (a b : Nat) (s t : State), runMoves move a s = .next t → runMoves move (a + b) s = runMoves move b t
  | 0, b, s, t, h => by cases h; simp
  | a + 1, b, s, t, h => by
    cases hb : s.status.busy with
    | false =>
      rw [runMoves_of_idle _ _ hb] at h
      cases h
      rw [runMoves_of_idle _ _ hb, runMoves_of_idle _ _ hb]
    | true =>
      cases hm : move s with
      | next u =>
        rw [runMoves_succ hb hm] at h
        rw [show a + 1 + b = (a + b) + 1 by omega, runMoves_succ hb hm]
        exact runMoves_add a b u t h
      | fault f => simp [runMoves, hb, hm] at h
      | refused r => simp [runMoves, hb, hm] at h

/-- More fuel than a finished run needs changes nothing. -/
theorem runMoves_mono {move : State → Host.Outcome State Fault Refusal} {a b : Nat} {s t : State}
    (h : runMoves move a s = .next t) (ht : t.status.busy = false) (hab : a ≤ b) :
    runMoves move b s = .next t := by
  obtain ⟨c, rfl⟩ := Nat.le.dest hab
  rw [runMoves_add a c s t h, runMoves_of_idle _ _ ht]

/-! ## The host's actions -/

/-- The host address of a register names its offset (00_scope.md R8). -/
theorem regOffset_base (s : State) (off : BitVec 8) : s.regOffset (s.cfg.pexBase + off.toNat) = some off := by
  have h := off.isLt
  have h1 : s.cfg.pexBase ≤ s.cfg.pexBase + off.toNat ∧ s.cfg.pexBase + off.toNat < s.cfg.pexBase + 0x100 := by
    omega
  simp [State.regOffset, h1]

theorem regOffset_outside {s : State} {addr : Nat} (h : addr < s.cfg.pexBase ∨ s.cfg.pexBase + 0x100 ≤ addr) :
    s.regOffset addr = none := by
  have h1 : ¬(s.cfg.pexBase ≤ addr ∧ addr < s.cfg.pexBase + 0x100) := by omega
  simp only [State.regOffset, if_neg h1]

/-- A register access at a register's host address (20_memory.md R45). -/
theorem regAct_base (s : State) (off : BitVec 8) (acc : Access) (act : BitVec 8 → State) :
    s.regAct (s.cfg.pexBase + off.toNat) acc act =
      if regAccessOk off acc then .next (act off) else .refused .regAccess := by
  simp only [State.regAct, regOffset_base]

theorem regAct_outside {s : State} {addr : Nat} (acc : Access) (act : BitVec 8 → State)
    (h : addr < s.cfg.pexBase ∨ s.cfg.pexBase + 0x100 ≤ addr) : s.regAct addr acc act = .refused .outsideBlock := by
  simp only [State.regAct, regOffset_outside h]

/-- A host access to a memory at its base plus a byte number (20_memory.md R50). -/
theorem memAct_base (base off : Nat) (act : Nat → Host.Outcome State Fault Refusal) :
    memAct base (base + off) act = act off := by
  simp [memAct]

theorem memAct_below {base addr : Nat} (act : Nat → Host.Outcome State Fault Refusal) (h : addr < base) :
    memAct base addr act = .refused .outsideBlock := by
  simp [memAct, Nat.not_le.2 h]

/-- A slot byte write changes its slot and no other (20_memory.md R43). -/
theorem setSlotByte_chan (s : State) (k k' : BitVec 2) (off : Nat) (b : Byte) :
    (s.setSlotByte k off b).chan k' = if k' = k then storeWrite (s.chan k) off b else s.chan k' := by
  obtain rfl | rfl | rfl | rfl : k = 0 ∨ k = 1 ∨ k = 2 ∨ k = 3 := by
    revert k; decide
  all_goals
    obtain rfl | rfl | rfl | rfl : k' = 0 ∨ k' = 1 ∨ k' = 2 ∨ k' = 3 := by
      revert k'; decide
    all_goals rfl

/-- A slot byte write keeps the canonical form of every slot. -/
theorem wf_setSlotByte {s : State} (k : BitVec 2) (off : Nat) (b : Byte) (h : ∀ j, (s.chan j).wf = true)
    (j : BitVec 2) : ((s.setSlotByte k off b).chan j).wf = true := by
  rw [setSlotByte_chan]
  split
  · exact storeWf_storeWrite _ _ _ (h k)
  · exact h j

/-- A slot byte write changes nothing but the slots. -/
theorem setSlotByte_frame (s : State) (k : BitVec 2) (off : Nat) (b : Byte) :
    { s.setSlotByte k off b with ch0 := s.ch0, ch1 := s.ch1, ch2 := s.ch2, ch3 := s.ch3 } = s := by
  unfold State.setSlotByte
  split <;> rfl

/-- A byte of a slot that exists is written, and the write spoils a running operation (20_memory.md R43, R55). -/
theorem chWrite_next {s t : State} {k : BitVec 2} {off : Nat} {b : Byte} (h : s.chWrite k off b = .next t) :
    off < 2 ^ 29 ∧ t = s.taintIfBusy.setSlotByte k off b := by
  unfold State.chWrite at h
  split at h
  · rename_i ho; cases h; exact ⟨ho, rfl⟩
  · cases h

/-- A byte of ACH0 that exists is written, and the write spoils a running operation (20_memory.md R40, R55). -/
theorem analogWrite_next {s t : State} {off : Nat} {b : Byte} (h : s.analogWrite off b = .next t) :
    off < 2 ^ 32 * s.cfg.analogFormat.bytes ∧ t = { s.taintIfBusy with ach0 := storeWrite s.ach0 off b } := by
  unfold State.analogWrite at h
  split at h
  · rename_i ho; cases h; exact ⟨ho, rfl⟩
  · cases h

/-- The wait for DONE: over when an operation runs to its end or DONE is 1, else the host waits on (70 R155). -/
theorem waitStep_busy {s : State} (t : State) (h : s.status.busy = true) : waitStep s t = blockRun t := by
  simp [waitStep, h]

theorem waitStep_done {s : State} (t : State) (h : s.status.done = true) : waitStep s t = blockRun t := by
  simp [waitStep, h]

theorem waitStep_idle {s : State} (t : State) (hb : s.status.busy = false) (hd : s.status.done = false) :
    waitStep s t = .next s := by
  simp [waitStep, hb, hd]

end Sys2Proof.Machine
end

