-- ==== Sys2Proof/Laws/PerInstr.lean ====
section
/-! SUPPORT. The family TableRow: every encoded instruction has the fixed bits of its row of opcode_table.json. -/

namespace Sys2Proof.Laws.TableRow

/-- The row's mask of fixed bits and their values (opcode_table.json; 30_encoding.md R58 to R65). -/
def row : Instr → Word × Word
  | .edges _ _ => (0xFFFFFF0F#32, 0x00000000#32)
  | .onewire => (0xFFFFFFFF#32, 0x00000001#32)
  | .spi3 _ => (0xFFFFFF8F#32, 0x00000002#32)
  | .spi4 _ _ => (0xFFFFFFCF#32, 0x00000003#32)
  | .i2c => (0xFFFFFFFF#32, 0x00000004#32)
  | .sync _ => (0xFFFFFFDF#32, 0x00000005#32)
  | .i2s _ _ _ _ => (0xFFFF000F#32, 0x00000006#32)
  | .uart _ _ _ _ _ => (0xFFFFC00F#32, 0x00000007#32)

/-- The word of `i` has its row's fixed bits. -/
def Statement (i : Instr) : Prop := encode i &&& (row i).1 = (row i).2

theorem edges (filt : Filter) (slot : BitVec 2) : Statement (.edges filt slot) := by
  unfold Statement; revert slot; cases filt <;> decide

theorem onewire : Statement .onewire := by unfold Statement; decide

theorem spi3 (rwpos : BitVec 3) : Statement (.spi3 rwpos) := by unfold Statement; revert rwpos; decide

theorem spi4 (cpol : Bool) (cpha : ClockEdge) : Statement (.spi4 cpol cpha) := by
  unfold Statement; cases cpol <;> cases cpha <;> decide

theorem i2c : Statement .i2c := by unfold Statement; decide

theorem sync (cpha : ClockEdge) : Statement (.sync cpha) := by
  unfold Statement; cases cpha <;> decide

theorem i2s (bpw : BitVec 6) (delay : BitVec 4) (order : BitOrder) (bedge : ClockEdge) :
    Statement (.i2s bpw delay order bedge) := by
  unfold Statement; revert bpw delay; cases order <;> cases bedge <;> decide +kernel

theorem uart (dbits : BitVec 4) (par : Parity) (stop2 auto analog : Bool) :
    Statement (.uart dbits par stop2 auto analog) := by
  unfold Statement; revert dbits; cases par <;> cases stop2 <;> cases auto <;> cases analog <;> decide

end Sys2Proof.Laws.TableRow
end

