-- ==== Sys2Proof/Machine/Assembler.lean ====
section
/-! DEFINITION. The textual form of a command word (30_encoding.md R71). -/

namespace Sys2Proof.Machine

/-- FILT as text (R71); the reserved code has none (DESIGN CHOICE, log entry 27). -/
def filterText : Filter → Option String
  | .any => some "ANY"
  | .rising => some "RISING"
  | .falling => some "FALLING"
  | .reserved => none

/-- PAR as text (R71); the reserved codes have none (DESIGN CHOICE, log entry 27). -/
def parityText : Parity → Option String
  | .none => some "NONE"
  | .odd => some "ODD"
  | .even => some "EVEN"
  | .mark => some "MARK"
  | .space => some "SPACE"
  | .reserved5 | .reserved6 | .reserved7 => none

/-- ORDER as text (R71). -/
def orderText : BitOrder → String
  | .msb => "MSB"
  | .lsb => "LSB"

/-- BEDGE as text (R71). -/
def edgeText : ClockEdge → String
  | .rising => "RISING"
  | .falling => "FALLING"

/-- A one-bit field as text. -/
def bitText (b : Bool) : String := if b then "1" else "0"

/-- The mnemonic followed by key=value pairs, every field written (R71, R67). R71 shows no text for a reserved value:
here a reserved BPW or DBITS is written as its number, and a reserved FILT or PAR leaves the word without text (DESIGN
CHOICE, log entry 27). -/
def asmText : Instr → Option String
  | .edges filt slot => (filterText filt).map fun f => "EDGES FILT=" ++ f ++ ", SLOT=" ++ toString slot.toNat
  | .onewire => some "ONEWIRE"
  | .spi3 rwpos => some ("SPI3 RWPOS=" ++ toString rwpos.toNat)
  | .spi4 cpol cpha => some ("SPI4 CPOL=" ++ bitText cpol ++ ", CPHA=" ++ bitText cpha.bit)
  | .i2c => some "I2C"
  | .sync cpha => some ("SYNC CPHA=" ++ bitText cpha.bit)
  | .i2s bpw delay order bedge =>
    some ("I2S BPW=" ++ toString bpw.toNat ++ ", DELAY=" ++ toString delay.toNat ++ ", ORDER=" ++
      orderText order ++ ", BEDGE=" ++ edgeText bedge)
  | .uart dbits par stop2 auto analog => (parityText par).map fun p =>
    "UART DBITS=" ++ toString dbits.toNat ++ ", PAR=" ++ p ++ ", STOP=" ++ (if stop2 then "2" else "1") ++
      ", AUTO=" ++ bitText auto ++ ", ANALOG=" ++ bitText analog

end Sys2Proof.Machine
end

