-- ==== Sys2Proof/Tests/Slice0.lean ====
section
/-! SUPPORT. Tests: well-formedness, decoding, one run per operation on vectors of spec/95_test_vectors.md or by hand from the rules, and
for every statement with hypotheses a witness that meets them. -/

open Sys2Proof Sys2Proof.Machine

namespace Sys2Proof.Tests

set_option Elab.async false

/-! ## Well-formedness (30_encoding.md R66): each check refuses an ill-formed term -/

theorem test_wf_filter : (Instr.edges .reserved 0).wf = false := by decide
theorem test_wf_bpw_zero : (Instr.i2s 0 1 .msb .rising).wf = false := by decide
theorem test_wf_bpw_above : (Instr.i2s 33 1 .msb .rising).wf = false := by decide
theorem test_wf_dbits_below : (Instr.uart 4 .none false false false).wf = false := by decide
theorem test_wf_dbits_above : (Instr.uart 10 .none false false false).wf = false := by decide
theorem test_wf_parity : (Instr.uart 8 .reserved5 false false false).wf = false ∧
    (Instr.uart 8 .reserved6 false false false).wf = false ∧
    (Instr.uart 8 .reserved7 false false false).wf = false := by decide
theorem test_wf_bounds_legal : (Instr.i2s 1 0 .msb .rising).wf = true ∧ (Instr.i2s 32 15 .lsb .falling).wf = true ∧
    (Instr.uart 5 .none false false false).wf = true ∧ (Instr.uart 9 .space true true true).wf = true := by decide

/-! ## Decoding: words written bit by bit from the field tables R58 to R65 -/

/-- SLOT = 1 at 7:6, FILT = 1 (RISING) at 5:4, OP = 0 (R58). -/
theorem test_decode_edges : decode 0b00000000000000000000000001010000#32 = .ok (.edges .rising 1) := by rfl
/-- OP = 1 (R59). -/
theorem test_decode_onewire : decode 0b00000000000000000000000000000001#32 = .ok .onewire := by rfl
/-- RWPOS = 7 at 6:4, OP = 2 (R60). -/
theorem test_decode_spi3 : decode 0b00000000000000000000000001110010#32 = .ok (.spi3 7) := by rfl
/-- CPHA = 1 at 5, CPOL = 0 at 4, OP = 3 (R61). -/
theorem test_decode_spi4 : decode 0b00000000000000000000000000100011#32 = .ok (.spi4 false .falling) := by rfl
/-- OP = 4 (R62). -/
theorem test_decode_i2c : decode 0b00000000000000000000000000000100#32 = .ok .i2c := by rfl
/-- CPHA = 1 at 5, bit 4 zero, OP = 5 (R63). -/
theorem test_decode_sync : decode 0b00000000000000000000000000100101#32 = .ok (.sync .falling) := by rfl
/-- BEDGE = 1 at 15, ORDER = 0 at 14, DELAY = 1 at 13:10, BPW = 5 at 9:4, OP = 6 (R64). -/
theorem test_decode_i2s : decode 0b00000000000000001000010001010110#32 = .ok (.i2s 5 1 .msb .falling) := by rfl
/-- ANALOG = 0 at 13, AUTO = 1 at 12, STOP2 = 0 at 11, PAR = 2 (EVEN) at 10:8, DBITS = 8 at 7:4, OP = 7 (R65). -/
theorem test_decode_uart : decode 0b00000000000000000001001010000111#32 = .ok (.uart 8 .even false true false) := by rfl
/-- Vectors V68, V69: a reserved operation, a must-be-zero bit. -/
theorem test_decode_errors : decode 0x8#32 = .error (.reservedOp 8) ∧ decode 0x11#32 = .error (.mustBeZero 1) ∧
    decode 0x15#32 = .error (.mustBeZero 5) := ⟨rfl, rfl, rfl⟩
/-- The first four bytes hold the word, least significant first (20_memory.md R44). -/
theorem test_decode_bytes : decodeBytes [0x56, 0x84, 0x00, 0x00, 0xFF] = .ok (.i2s 5 1 .msb .falling, [0xFF]) := by rfl

/-- The example of R71, and the I2S word of vector V43, as text and as a word. -/
theorem test_assembler :
    asmText (.uart 8 .none false true false) = some "UART DBITS=8, PAR=NONE, STOP=1, AUTO=1, ANALOG=0" ∧
    encode (.uart 8 .none false true false) = 0x1087 ∧
    asmText (.i2s 4 1 .msb .rising) = some "I2S BPW=4, DELAY=1, ORDER=MSB, BEDGE=RISING" ∧
    encode (.i2s 4 1 .msb .rising) = 0x446 := by decide +kernel

/-! ## Small machines -/

/-- A slot holding the given samples (20_memory.md R43). -/
def slotOf (xs : List Bool) : Mem :=
  (List.range ((xs.length + 7) / 8)).map fun b =>
    (b, BitVec.ofNat 8 ((List.range 8).map fun j => (xs.getD (8 * b + j) false).toNat * 2 ^ j).sum)

/-- Samples from a number, sample j its bit j. -/
def wave (n v : Nat) : List Bool := (List.range n).map v.testBit

/-- A machine at rest with N samples in its slots and T = 1 µs. -/
def atRest (n : Nat) (c0 c1 c2 c3 : List Bool) : State :=
  { State.reset with
    ch0 := slotOf c0
    ch1 := slotOf c1
    ch2 := slotOf c2
    ch3 := slotOf c3
    len := BitVec.ofNat 32 n
    spNum := 1
    spDen := 1000000
    baud := 250000 }

/-- The same with operation `i` started. -/
def begun (i : Instr) (n : Nat) (c0 c1 c2 c3 : List Bool) : State :=
  (atRest n c0 c1 c2 c3).startCommand (encode i)

/-- The step answers a next state of which `p` holds. -/
def answers (o : Host.Outcome State Fault Refusal) (p : State → Bool) : Bool :=
  match o with
  | .next t => p t
  | .fault _ => false
  | .refused _ => false

/-- The step faults so. -/
def stops (o : Host.Outcome State Fault Refusal) (f : Fault) : Bool :=
  match o with
  | .next _ => false
  | .fault g => g == f
  | .refused _ => false

/-- The records of OUT. -/
def recordsOf (t : State) : List RecordView := (List.range t.outCount.toNat).map (recordAt t.out)

/-- The index words of OUT. -/
def wordsOf (t : State) : List Nat := (List.range t.outCount.toNat).map fun n => (wordAt t.out (4 * n)).toNat

/-! ## One run per operation -/

/-- Vector V1, filter ANY: samples 0 0 1 1 0 1. -/
theorem test_edges_any : answers (step (begun (.edges .any 0) 6 (wave 6 0b101100) [] [] []))
    (fun t => t.status.word == 2 && wordsOf t == [2, 4, 5]) = true := by decide +kernel

/-- Vector V4: OUT_CAP = 1, four words, then OUT_OVERFLOW. -/
theorem test_edges_overflow : answers (step { begun (.edges .any 0) 7 (wave 7 0b0101010) [] [] [] with
      cfg := { Params.default with outCap := 1 } })
    (fun t => t.status.word == 0x12 && wordsOf t == [1, 2, 3, 4]) = true := by decide +kernel

/-- By hand from R80 to R82 at T = 20 µs: low 25 samples is 500 µs, wait 2 is 40 µs, low 5 is 100 µs. -/
theorem test_onewire_reset : answers (step { begun .onewire 40
        (List.replicate 2 true ++ List.replicate 25 false ++ List.replicate 2 true ++ List.replicate 5 false ++
          List.replicate 6 true) [] [] [] with
      op := { n := 40, spNum := 20, spDen := 1000000, baud := 0 } })
    (fun t => recordsOf t ==
      [{ label := 3, colour := 0, start := 2, stop := 27, kind := 0, width := 0, value := 0 },
       { label := 4, colour := 0, start := 29, stop := 34, kind := 0, width := 0, value := 0 }]) = true := by
  decide +kernel

/-- By hand from R80 at T = 20 µs: low 24 samples is exactly 480 µs, not above the minimum (as vector V8). -/
theorem test_onewire_short : answers (step { begun .onewire 30
        (List.replicate 2 true ++ List.replicate 24 false ++ List.replicate 4 true) [] [] [] with
      op := { n := 30, spNum := 20, spDen := 1000000, baud := 0 } })
    (fun t => recordsOf t ==
      [{ label := 5, colour := 4, start := 2, stop := 26, kind := 0, width := 0, value := 0 }]) = true := by
  decide +kernel

/-- The byte 0xA5 by the SPI builder of 95_test_vectors.md, without the four samples after it. -/
def spiNcs : List Bool := (List.range 41).map fun i => decide (i < 2 ∨ 39 ≤ i)
def spiClk : List Bool := (List.range 41).map fun i => decide (4 ≤ i ∧ i < 36 ∧ (i - 4) % 4 < 2)
def spiMosi : List Bool := (List.range 41).map fun i =>
  decide (3 ≤ i) && (0xA5#8).getMsbD (min ((i - 3) / 4) 7)

/-- By hand from R88 to R93 and R129: S at 2, the byte over [4, 32), P over [32, 39); S widened by 7 to 0. -/
theorem test_spi3_byte : answers (step (begun (.spi3 7) 41 spiNcs spiClk spiMosi []))
    (fun t => recordsOf t ==
      [{ label := 1, colour := 0, start := 0, stop := 2, kind := 0, width := 0, value := 0 },
       { label := 0x0B, colour := 1, start := 4, stop := 32, kind := 1, width := 8, value := 0xA5 },
       { label := 2, colour := 0, start := 32, stop := 39, kind := 0, width := 0, value := 0 }]) = true := by
  decide +kernel

/-- As vector V28: Command with value 165 over [4, 32), on rising edges. -/
theorem test_spi4_command : answers (step (begun (.spi4 false .rising) 41 spiNcs spiClk spiMosi spiNcs))
    (fun t => recordAt t.out 1 ==
      { label := 0x0E, colour := 3, start := 4, stop := 32, kind := 1, width := 8, value := 165 }) = true := by
  decide +kernel

/-- The wire byte 0xA0 with ACK by the I2C builder of 95_test_vectors.md (n = 9, N = 48). -/
def i2cScl : List Bool := (List.range 48).map fun i =>
  decide (i < 4 ∨ (6 ≤ i ∧ i < 42 ∧ (i - 6) % 4 < 2) ∨ 42 ≤ i)
def i2cSda : List Bool := (List.range 48).map fun i =>
  if i < 2 then true else if i < 5 then false
  else if i < 37 then (0xA0#8).getMsbD ((i - 5) / 4) else decide (44 ≤ i)

/-- By hand from R100 to R105 and R129: W, 7-bit address 0x50, over [6, 38). -/
theorem test_i2c_address : answers (step (begun .i2c 48 i2cScl i2cSda [] []))
    (fun t => t.outCount == 3 && (recordAt t.out 1 ==
      { label := 0x11, colour := 1, start := 6, stop := 38, kind := 1, width := 7, value := 0x50 })) = true := by
  decide +kernel

/-- By hand from R109: nine rising edges at 1, 3, …, 17 with DATA high at 1 and 15 only; one byte, one bit left over. -/
theorem test_sync_byte : answers (step (begun (.sync .rising) 18 (wave 18 0x2AAAA) (wave 18 0x08002) [] []))
    (fun t => recordsOf t ==
      [{ label := 0x13, colour := 2, start := 1, stop := 15, kind := 1, width := 8, value := 0x81 }]) = true := by
  decide +kernel

/-- By hand from R111, R112: frame edges 4 and 12, BCLK rising at odd indices, DELAY 1, BPW 3: edges 7, 9, 11. -/
theorem test_i2s_word : answers (step (begun (.i2s 3 1 .msb .rising) 16 (wave 16 0xF00F) (wave 16 0xAAAA)
      (wave 16 0x0880) []))
    (fun t => recordsOf t ==
      [{ label := 0x14, colour := 2, start := 4, stop := 12, kind := 1, width := 3, value := 0b101 }]) = true := by
  decide +kernel

/-- The same bits, LSB first, from SD high at 7 and 9 only. -/
theorem test_i2s_lsb : answers (step (begun (.i2s 3 1 .lsb .rising) 16 (wave 16 0xF00F) (wave 16 0xAAAA)
      (wave 16 0x0280) []))
    (fun t => (recordAt t.out 0).value == 0b011) = true := by decide +kernel

/-- The byte 0x15 as a 5N1 frame, two samples a bit, between idle levels: 4 of 1, 14, then 4 of 1. -/
def uartWave : List Bool :=
  List.replicate 4 true ++
    ([false, true, false, true, false, true, true].flatMap fun b => [b, b]) ++ List.replicate 4 true

/-- By hand from R116 to R126 at 500000 baud, P = 2: START [4, 6), D [6, 16) 0x15, STOP [16, 18). -/
theorem test_uart_frame : answers (step { begun (.uart 5 .none false false false) 22 uartWave [] [] [] with
      op := { n := 22, spNum := 1, spDen := 1000000, baud := 500000 } })
    (fun t => t.status.word == 2 && t.bpNum == 2 && t.uartBslen == 11 && (recordsOf t ==
      [{ label := 0x15, colour := 0, start := 4, stop := 6, kind := 0, width := 0, value := 0 },
       { label := 0x13, colour := 2, start := 6, stop := 16, kind := 1, width := 5, value := 0x15 },
       { label := 0x16, colour := 0, start := 16, stop := 18, kind := 0, width := 0, value := 0 }])) = true := by
  decide +kernel

/-- As vector V55: a constant buffer in auto mode has no repeated run length, EMPTY_NO_PERIOD. -/
theorem test_uart_no_period : answers (step (begun (.uart 8 .none false true false) 20 (List.replicate 20 true) [] [] []))
    (fun t => t.status.word == 6 && t.outCount == 0) = true := by decide +kernel

/-! ## The step, the host and the faults -/

/-- Each operation's word runs as the first instruction after reset (N = 0, so it ends with OK or, for UART, as too short). -/
theorem test_fetch_runs :
    (∀ w ∈ [0x50, 0x01, 0x72, 0x23, 0x04, 0x25, 0x8456],
      answers (step (State.reset.withFetchWord 32 w)) (fun t => t.status.word == 2) = true) ∧
    answers (step (State.reset.withFetchWord 32 0x87)) (fun t => t.status.word == 0x0A) = true := by decide +kernel

/-- Vector V70: SP_NUM = 0 is refused with CONFIG_ERROR. -/
theorem test_config_error : answers (step (State.reset.startCommand 1)) (fun t => t.status.word == 0x0E) = true := by
  decide +kernel

/-- Samples 0 to 8 of CH0 asked for, only byte 0 written (70 R151). -/
theorem test_unwritten : stops (step (begun .onewire 9 (wave 8 0) [] [] [])) .unwrittenSample = true := by
  decide +kernel

/-- The host writes SP_NUM, byte 0 of CH0, N and the command 0x20, then waits: one falling edge at 2 (vector V3). -/
theorem test_script : answers
    (Host.Core.run Sys2Proof.core 5 { State.reset with script :=
      [.host (.regWrite 0x08 .word 1), .host (.chWrite 0 0x20000000 0b011), .host (.regWrite 0x04 .word 3),
       .host (.regWrite 0x00 .word 0x20), .waitDone] })
    (fun t => t.status.word == 2 && wordsOf t == [2]) = true := by decide +kernel

/-- The signed 16-bit element 0xFFFE is −2; byte 1 alone gives no sample (93 I17, 20_memory.md R44). -/
theorem test_analog_element :
    (let f : AnalogFormat := { width := 16, signed := true }
     let s := { State.reset with cfg := { Params.default with analogFormat := f } }
     ({ s with ach0 := [(0, 0xFE), (1, 0xFF)] }).ach 0 = some (-2) ∧ ({ s with ach0 := [(1, 0xFF)] }).ach 0 = none) := by
  decide +kernel

/-- The host's wait on an idle block with DONE = 0 stays (70 R155). -/
theorem test_wait_stays : answers (step { State.reset with script := [.waitDone] })
    (fun t => t.script == [.waitDone]) = true := by decide +kernel

/-- OUT cannot be read before the first operation since reset has finished, even below OUT_COUNT (70 R151, 93 I5). -/
theorem test_out_before_first : stops (hostAct (.outRead 0x1000000000 .byte) { begun .i2c 8 (wave 8 0) (wave 8 0) [] [] with outCount := 1 })
    .outNotValid = true := by
  decide +kernel

/-- A write to CMD while BUSY = 1 changes nothing (10_state.md R19). -/
theorem test_busy_write : hostAct (.regWrite 0x00 .word 0x04) (begun .onewire 8 (wave 8 0) [] [] []) =
    .next (begun .onewire 8 (wave 8 0) [] [] []) := by rfl

/-! ## Witnesses: for every statement with hypotheses, states and operands that meet them -/

theorem answers_next {o : Host.Outcome State Fault Refusal} {p : State → Bool} (h : answers o p = true) :
    ∃ t, o = .next t ∧ p t = true := by
  cases o with
  | next t => exact ⟨t, rfl, h⟩
  | fault f => cases h
  | refused r => cases h

/-- One of each operation, with field values at both ends of their ranges. -/
def someOps : List Instr :=
  [.edges .any 3, .edges .falling 0, .onewire, .spi3 0, .spi3 7, .spi4 true .falling, .spi4 false .rising, .i2c,
   .sync .rising, .sync .falling, .i2s 1 0 .lsb .falling, .i2s 32 15 .msb .rising,
   .uart 5 .none false true false, .uart 9 .space true false true]

/-- Eighteen samples in every slot, and analog ones. -/
def full (i : Instr) : State :=
  { begun i 18 (wave 18 0x2AC35) (wave 18 0x15A5A) (wave 18 0x33333) (wave 18 0x0F0F0) with
    ach0 := (List.range 18).map fun a => (a, BitVec.ofNat 8 (a % 3))
    cfg := { Params.default with analogFormat := { width := 8, signed := false } } }

/-- The same with every line constant. -/
def quiet (i : Instr) : State := begun i 18 (wave 18 0x3FFFF) (wave 18 0) (wave 18 0) (wave 18 0x3FFFF)

theorem witness_EncodeOfDecode : decode 0x00000050#32 = .ok (.edges .rising 1) := by rfl

theorem witness_StepRunsTheCommand :
    ((full .i2c).script = [] ∧ (full .i2c).status.busy = true ∧ decode (full .i2c).cmd = .ok .i2c) ∧
    (State.reset.script = [] ∧ State.reset.status.busy = false) ∧
    decode (BitVec.ofNat 32 (0x72 % 2 ^ 32)) = .ok (.spi3 7) := by decide +kernel

theorem witness_StepRunsTheCommand_waits :
    (let s := { State.reset with script := [.waitDone], status := .finished .ok, finishedOnce := true }
     s.script = .waitDone :: [] ∧ s.status.busy = false ∧ s.status.done = true) ∧
    (let s := { State.reset with script := [.waitDone] }
     s.script = .waitDone :: [] ∧ s.status.busy = false ∧ s.status.done = false) := by decide +kernel

theorem witness_StepRunsTheCommand_events :
    (let s := { full .i2c with script := [.waitDone] }
     s.script = .waitDone :: [] ∧ s.status.busy = true ∧ decode s.cmd = .ok .i2c) ∧
    (let s := { full .i2c with script := [.tick] }
     s.script = .tick :: [] ∧ s.status.busy = true ∧ decode s.cmd = .ok .i2c) ∧
    ({ full .i2c with script := [.host .hwReset] }).script = .host .hwReset :: [] := by decide +kernel

theorem witness_ready : ∀ i ∈ someOps, decode (full i).cmd = .ok i ∧ (full i).Ready i ∧ (full i).tainted = false ∧
    (full i).n ≤ (full i).cfg.outCap.toNat := by decide +kernel

theorem witness_RunIsItsMicroSteps : decode (full .onewire).cmd = .ok .onewire ∧ (full .onewire).Ready .onewire := by
  decide +kernel

theorem witness_EveryOperationFinishes : ∀ i ∈ someOps, (full i).Ready i := by decide +kernel

theorem witness_ClockedOperationsEndOk : ∀ i ∈ someOps.take 12, clocked i = true ∧ (full i).Ready i ∧
    (full i).tainted = false ∧ (full i).n ≤ (full i).cfg.outCap.toNat := by decide +kernel

theorem witness_CommandWriteStarts : State.reset.status.busy = false := by rfl

theorem witness_RegisterWrites : State.reset.status.busy = false ∧
    ((0x00#8).toNat % 4 = 0 ∧ (full .i2c).status.busy = true) ∧
    ((0x14#8).toNat % 4 = 0 ∧ 0x14 ≤ (0x14#8).toNat) ∧ ((0xFC#8).toNat % 4 = 0 ∧ 0x14 ≤ (0xFC#8).toNat) := by
  decide +kernel

theorem witness_RegisterReads :
    ((0x18#8).toNat % 4 = 0 ∧ State.reset.status.busy = false) ∧
    ((0x14#8).toNat % 4 = 0 ∧ 0x14#8 ≠ 0x18#8 ∧ (0x14#8).toNat < 0x1C) ∧
    ((0x30#8).toNat % 4 = 0 ∧ 0x30#8 ≠ 0x18#8 ∧ 0x2C < (0x30#8).toNat) ∧
    ((0x1C#8).toNat % 4 = 0 ∧ 0x1C#8 ≠ 0x18#8 ∧ (full .i2c).tainted = false) ∧
    ((0x18#8).toNat % 4 = 0 ∧ (full .i2c).status.busy = true) ∧
    (let s := { full .i2c with tainted := true }
     s.status.busy = true ∧ s.tainted = true ∧ 0x1C ≤ (0x1C#8).toNat ∧ (0x2C#8).toNat ≤ 0x2C) := by decide +kernel

theorem witness_MisalignedRegisterAccess : Access.half ≠ .word ∧ (0x01#8).toNat % 4 ≠ 0 ∧ (0xFF#8).toNat % 4 ≠ 0 := by
  decide

theorem witness_SlotWriteSetsEightSamples :
    (7 < 8 ∧ 0 < 8) ∧ (1#2 ≠ 0#2) ∧ 8 / 8 ≠ 0 ∧ 7 / 8 ≠ 1 ∧ 2 ^ 29 - 1 < 2 ^ 29 ∧
    State.reset.chBase 0 + 2 ^ 29 ≤ 0x40000000 ∧ 0x1FFFFFFF < State.reset.chBase 0 ∧
    State.reset.cfg.ach0Base + 2 ^ 32 * State.reset.cfg.analogFormat.bytes ≤ 0x800000000 ∧
    0x3FFFFFFFF < State.reset.cfg.ach0Base ∧
    State.reset.cfg.analogFormat.bytes = 4 ∧ 2 ^ 34 - 1 < 2 ^ 32 * 4 ∧ 2 ^ 32 * 4 ≤ 2 ^ 34 ∧ 4 / 4 ≠ 3 / 4 ∧
    (let s := { State.reset with ach0 := writeWord [] 4 0xFFFFFFFE }
     (∀ j, j < s.cfg.analogFormat.bytes →
       storeRead s.ach0 (s.cfg.analogFormat.bytes * 1 + j) = some (BitVec.ofNat 8 (0xFFFFFFFE / 256 ^ j))) ∧
     s.ach 1 = some (-2)) := by decide +kernel

theorem witness_ResetRegisterValues : 0x30 ≤ (0x30#8).toNat ∧ 0x30 ≤ (0xFF#8).toNat := by decide

theorem witness_EmitWritesOneRecord : State.reset.Room ∧
    ¬({ State.reset with cfg := { Params.default with outCap := 0 } }).Room ∧
    (let s := { State.reset with outCount := 1 }
     15 < 16 * s.outCount.toNat ∧ 16 * s.outCount.toNat + 16 ≤ 32) := by decide +kernel

/-- OUT as EDGES leaves it with one index word. -/
def oneWordOut : State :=
  { State.reset with outCount := 1, out := writeWord [] 0 0x01020304, finishedOnce := true }

theorem witness_OutReads :
    (State.reset.finishedOnce = false ∧ oneWordOut.finishedOnce = true ∧ 0xFFFFFFFFF < oneWordOut.cfg.outBase) ∧
    (oneWordOut.outUnit * oneWordOut.outCount.toNat < 1 + Access.word.bytes) ∧
    (let s := { oneWordOut with status := .running }
     s.status.busy = true ∧ 0 + Access.word.bytes ≤ s.outUnit * s.outCount.toNat) ∧
    (oneWordOut.status.busy = false ∧ 3 + 1 ≤ oneWordOut.outUnit * oneWordOut.outCount.toNat ∧
      storeRead oneWordOut.out 3 = some 0x01) ∧
    (2 + 2 ≤ oneWordOut.outUnit * oneWordOut.outCount.toNat ∧ storeRead oneWordOut.out 2 = some 0x02 ∧
      storeRead oneWordOut.out (2 + 1) = some 0x01) ∧
    (0 + 4 ≤ oneWordOut.outUnit * oneWordOut.outCount.toNat ∧
      storeRead oneWordOut.out 0 = some 0x04 ∧ storeRead oneWordOut.out (0 + 1) = some 0x03 ∧
      storeRead oneWordOut.out (0 + 2) = some 0x02 ∧ storeRead oneWordOut.out (0 + 3) = some 0x01) := by decide +kernel

theorem witness_ConstantLinesYieldNothing : ∀ i ∈ someOps.take 12, clocked i = true ∧ (quiet i).Ready i ∧
    (quiet i).tainted = false ∧
    (∀ j, j < (quiet i).n → (quiet i).smp 0 j = .ok true ∧ (quiet i).smp 1 j = .ok false ∧
      (quiet i).smp 2 j = .ok false ∧ (quiet i).smp 3 j = .ok true) := by decide +kernel

theorem witness_IllegalCommandIsRefused :
    ((full .i2c).Started ∧ (full .i2c).tainted = false) ∧ (Instr.i2s 0 1 .msb .rising).wf = false ∧
    (let s := State.reset.startCommand 1
     s.Started ∧ s.tainted = false ∧ s.op.spNum = 0) ∧
    (let s := ({ State.reset with spNum := 1, spDen := 0 }).startCommand 1
     s.Started ∧ s.tainted = false ∧ s.op.spDen = 0) ∧
    (let s := State.reset.startCommand 0x87
     s.Started ∧ s.tainted = false ∧ s.op.baud = 0) ∧
    (let s := State.reset.startCommand 0x15
     s.Started ∧ s.tainted = false ∧ decode s.cmd = .error (.mustBeZero 5) ∧ s.script = []) := by decide +kernel

theorem witness_UnwrittenSamplesFault :
    (let s := begun .onewire 9 (wave 8 0) [] [] []
     s.Started ∧ legal .onewire s = true ∧ 0 ∈ opSlots .onewire ∧ 8 < s.n ∧ sampleIn (s.chan 0) 8 = none) ∧
    (let i := Instr.uart 8 .none false true true
     let s := begun i 1 [] [] [] []
     s.Started ∧ legal i s = true ∧ opReadsAnalog i = true ∧ 0 < s.n ∧ s.ach 0 = none) := by
  decide +kernel

/-- Every operation answers a next state from its full machine. -/
theorem full_answers : ∀ i ∈ someOps, answers (exec i (full i)) (fun t => t.status.done) = true := by decide +kernel

theorem witness_exec_answers : ∀ i ∈ someOps, (full i).Ready i ∧ (full i).Started ∧ (full i).tainted = false ∧
    ∃ t, exec i (full i) = .next t := fun i hi =>
  have h := witness_ready i hi
  have ⟨t, ht, _⟩ := answers_next (full_answers i hi)
  ⟨h.2.1, h.2.1.1, h.2.2.1, t, ht⟩

theorem witness_ExecFrame : ∃ t, exec .i2c (full .i2c) = .next t :=
  (witness_exec_answers .i2c (by decide)).2.2.2

theorem witness_ExecWritesOnlyItsRecords : (full .i2c).Started ∧ (full .i2c).tainted = false ∧
    (∃ t, exec .i2c (full .i2c) = .next t) := (witness_exec_answers .i2c (by decide)).2

theorem witness_DiagnosticsOnlyFromUart : clocked (.sync .rising) = true ∧ (full (.sync .rising)).Started ∧
    (full (.sync .rising)).tainted = false ∧ (∃ t, exec (.sync .rising) (full (.sync .rising)) = .next t) :=
  ⟨rfl, (witness_exec_answers (.sync .rising) (by decide)).2⟩

theorem witness_SpoiledOperationStillFinishes : State.reset.tainted = false ∧
    ({ State.reset with tainted := true }).tainted = true := by decide

theorem witness_EveryOutputIsOrdered : unitOf .onewire = 16 ∧ (full .onewire).Ready .onewire ∧
    (full .onewire).tainted = false ∧ (∃ t, exec .onewire (full .onewire) = .next t) :=
  have h := witness_exec_answers .onewire (by decide)
  ⟨rfl, h.1, h.2.2⟩

theorem witness_OneWireStartsStrictlyIncrease : (full .onewire).Ready .onewire ∧ (full .onewire).tainted = false ∧
    (∃ t, exec .onewire (full .onewire) = .next t) := witness_EveryOutputIsOrdered.2

/-- The same machine with other bytes in OUT, another CH3 and other samples from N on. -/
def otherPast : State :=
  { full .onewire with
    out := writeWord [] 4 0xDEADBEEF
    ch0 := storeWrite (full .onewire).ch0 3 0xFF
    ch3 := []
    w := { Work.initial with i := 7, entry := 3, ow := .active } }

theorem witness_ResultsDependOnSamplesAlone :
    otherPast.Ready .onewire ∧ otherPast.tainted = false ∧ (full .onewire).op = otherPast.op ∧
    (full .onewire).cfg = otherPast.cfg ∧
    (∀ k ∈ opSlots .onewire, ∀ j, j < (full .onewire).n →
      sampleIn ((full .onewire).chan k) j = sampleIn (otherPast.chan k) j) ∧
    answers (exec .onewire otherPast) (fun t => t.status.done) = true := by decide +kernel

theorem witness_StepKeepsInvariant : State.reset.Inv ∧ ∃ t, step State.reset = .next t := ⟨by decide, _, rfl⟩

/-- A busy machine that meets the invariant, at the start of an operation. -/
theorem witness_StepKeepsInvariant_busy : (full .i2c).Inv ∧ ∃ t, step (full .i2c) = .next t := by
  refine ⟨by decide +kernel, ?_⟩
  have h : answers (step (full .i2c)) (fun t => t.status.done) = true := by decide +kernel
  exact (answers_next h).imp fun t ht => ht.1

theorem witness_EdgePredicates :
    (full .onewire).smp 0 (1 - 1) = .ok true ∧ (full .onewire).smp 0 1 = .ok false ∧
    (full .onewire).levels 0 0 = .ok (true, true) ∧ 17 < (full .onewire).n ∧ (full .onewire).n ≤ 18 ∧
    (let s := begun .onewire 9 (wave 8 0) [] [] []
     8 < s.n ∧ sampleIn (s.chan 0) 8 = none) := by decide +kernel

theorem witness_EdgeListIsTheEdges :
    (begun (.edges .any 0) 6 (wave 6 0b101100) [] [] []).edgeList 0 .any = .ok [2, 4, 5] := by decide +kernel

theorem witness_EdgesWritesTheEdgeList :
    (let s := begun (.edges .any 0) 6 (wave 6 0b101100) [] [] []
     s.Ready (.edges .any 0) ∧ s.tainted = false ∧ s.edgeList 0 .any = .ok [2, 4, 5]) ∧
    (let s := { begun (.edges .any 0) 7 (wave 7 0b0101010) [] [] [] with cfg := { Params.default with outCap := 1 } }
     s.Ready (.edges .any 0) ∧ s.tainted = false ∧ s.edgeList 0 .any = .ok [1, 2, 3, 4, 5, 6]) := by decide +kernel

/-- Scanning at index `i` of the given samples, the rest of the working registers as given. -/
def at_ (i : Instr) (n : Nat) (c0 c1 c2 c3 : List Bool) (w : Work) : State :=
  { begun i n c0 c1 c2 c3 with phase := .scan, w := w }

/-- 1-Wire at a falling edge (index 2) and a rising edge (index 1) of the samples 0 1 0. -/
def ow (q : OwState) (i : Nat) : State :=
  at_ .onewire 3 (wave 3 0b010) [] [] [] { Work.initial with ow := q, i := i }

theorem witness_OneWireFallingEdgeStarts :
    (∀ q ∈ [OwState.idle, .active, .one, .masterWritingZero, .masterReadingZero],
      (ow q 2).Scanning ∧ (ow q 2).levels 0 (ow q 2).w.i = .ok (true, false) ∧ (ow q 2).w.ow = q) ∧
    (ow .idle 1).Scanning ∧ (ow .idle 1).levels 0 (ow .idle 1).w.i = .ok (false, true) := by decide +kernel

theorem witness_OneWireResetPulse : (ow .resetMasterPulse 1).Scanning ∧ (ow .resetMasterPulse 1).Room ∧
    (ow .resetMasterPulse 1).levels 0 (ow .resetMasterPulse 1).w.i = .ok (false, true) ∧
    (ow .resetMasterPulse 1).w.ow = .resetMasterPulse := by decide +kernel

theorem witness_OneWirePresenceWait : (ow .resetSlaveWait 2).Scanning ∧ (ow .resetSlaveWait 2).Room ∧
    (ow .resetSlaveWait 2).levels 0 (ow .resetSlaveWait 2).w.i = .ok (true, false) ∧
    (ow .resetSlaveWait 2).w.ow = .resetSlaveWait := by decide +kernel

theorem witness_OneWirePresencePulse : (ow .resetSlavePulse 1).Scanning ∧ (ow .resetSlavePulse 1).Room ∧
    (ow .resetSlavePulse 1).levels 0 (ow .resetSlavePulse 1).w.i = .ok (false, true) ∧
    (ow .resetSlavePulse 1).w.ow = .resetSlavePulse := by decide +kernel

theorem witness_OneWireSlot : (ow .activeFallen 1).Scanning ∧ (ow .activeFallen 1).Room ∧
    (ow .activeFallen 1).levels 0 (ow .activeFallen 1).w.i = .ok (false, true) ∧
    (ow .activeFallen 1).w.ow = .activeFallen := by decide +kernel

/-- An SPI decoder at index 1, chip select, clock and data as given. -/
def spi (i : Instr) (ncs clk d : Nat) (w : Work) : State :=
  at_ i 2 (wave 2 ncs) (wave 2 clk) (wave 2 d) (wave 2 d) { w with i := 1 }

theorem witness_SpiFraming : ∀ i ∈ [Instr.spi3 7, .spi4 false .rising],
    (let s := spi i 0b01 0b10 0 Work.initial
     s.Scanning ∧ s.Room ∧ samplesWritten i s = true ∧ s.levels 0 s.w.i = .ok (true, false) ∧
       s.levels 1 s.w.i = .ok (false, true)) ∧
    (let s := spi i 0b10 0b10 0 { Work.initial with bus := .active }
     s.levels 0 s.w.i = .ok (false, true) ∧ s.w.bus = .active) ∧
    (let s := spi i 0b10 0b10 0 Work.initial
     s.levels 0 s.w.i = .ok (false, true) ∧ s.w.bus = .idle) ∧
    (let s := spi i 0b11 0b01 0 { Work.initial with bus := .active }
     s.Scanning ∧ s.Room ∧ samplesWritten i s = true ∧ s.levels 0 s.w.i = .ok (true, true) ∧
       s.levels 1 s.w.i = .ok (true, false)) ∧
    (true, false) ≠ (decide (ClockEdge.rising = .falling), decide (ClockEdge.rising = .rising)) := by decide +kernel

theorem witness_SpiFraming_ops : (∃ r, Instr.spi3 7 = .spi3 r ∧ ClockEdge.rising = .rising) ∧
    (∃ cpol, Instr.spi4 false .rising = .spi4 cpol .rising) := ⟨⟨7, rfl, rfl⟩, false, rfl⟩

theorem witness_Spi3Bit : ∀ c ∈ [0, 6, 7], ∀ f : Bool,
    let s := spi (.spi3 7) 0b00 0b10 0b10 { Work.initial with bus := .active, cnt := c, first := f, acc := 0xFF }
    s.Scanning ∧ s.Room ∧ s.levels 0 s.w.i = .ok (false, false) ∧ s.levels 1 s.w.i = .ok (false, true) ∧
      s.smp 2 s.w.i = .ok true ∧ s.w.bus = .active ∧ (0xFF#8).toNat = (2 * s.w.acc.toNat + true.toNat) % 256 ∧
      s.w.cnt = c ∧ s.w.first = f := by decide +kernel

theorem witness_Spi4Bit : ∀ c ∈ [0, 6, 7],
    let s := spi (.spi4 false .falling) 0b00 0b01 0b10 { Work.initial with bus := .active, cnt := c }
    s.Scanning ∧ s.Room ∧ s.levels 0 s.w.i = .ok (false, false) ∧
      s.levels 1 s.w.i = .ok (decide (ClockEdge.falling = .falling), decide (ClockEdge.falling = .rising)) ∧
      s.smp 2 s.w.i = .ok true ∧ s.smp 3 s.w.i = .ok true ∧ s.w.bus = .active ∧
      (0x01#8).toNat = (2 * s.w.mo.toNat + true.toNat) % 256 ∧
      (0x01#8).toNat = (2 * s.w.mi.toNat + true.toNat) % 256 ∧ s.w.cnt = c := by decide +kernel

/-- I2C at index 1, SCL and SDA as given. -/
def i2c (scl sda : Nat) (w : Work) : State := at_ .i2c 2 (wave 2 scl) (wave 2 sda) [] [] { w with i := 1 }

theorem witness_I2cConditions :
    (let s := i2c 0b11 0b01 Work.initial
     s.Scanning ∧ s.Room ∧ s.levels 0 s.w.i = .ok (true, true) ∧ s.levels 1 s.w.i = .ok (true, false)) ∧
    (∀ q : Bool, let s := i2c 0b11 0b10 { Work.initial with bus := if q then .active else .idle }
     s.Scanning ∧ s.Room ∧ s.levels 0 s.w.i = .ok (true, true) ∧ s.levels 1 s.w.i = .ok (false, true) ∧
       (s.w.bus = .active ↔ q = true)) ∧
    (let s := i2c 0b01 0b10 { Work.initial with bus := .active }
     s.Scanning ∧ s.Room ∧ s.levels 0 s.w.i = .ok (true, false) ∧ s.levels 1 s.w.i = .ok (false, true)) := by
  decide +kernel

theorem witness_I2cBit : ∀ l ∈ [0, 1, 8],
    let s := i2c 0b10 0b11 { Work.initial with bus := .active, left := l }
    s.Scanning ∧ s.Room ∧ s.levels 0 s.w.i = .ok (false, true) ∧ s.levels 1 s.w.i = .ok (true, true) ∧
      s.w.bus = .active ∧ (0x01#8).toNat = (2 * s.w.acc.toNat + true.toNat) % 256 ∧ s.w.left = l := by decide +kernel

theorem witness_SyncReportsEveryEightEdges : ∀ cap : Bool,
    let s := { begun (.sync .rising) 18 (wave 18 0x2AAAA) (wave 18 0x08002) [] [] with
      cfg := { Params.default with outCap := if cap then 1 else 0 } }
    s.Ready (.sync .rising) ∧ s.tainted = false ∧
      s.edgeList 0 (if ClockEdge.rising = .rising then .rising else .falling) = .ok [1, 3, 5, 7, 9, 11, 13, 15, 17] ∧
      (∀ j, j < 8 → s.smp 1 ([1, 3, 5, 7, 9, 11, 13, 15, 17].getD (8 * 0 + j) 0) = .ok (decide (j = 0 ∨ j = 7))) := by
  decide +kernel

theorem witness_I2sExtractsEdges :
    let s := at_ (.i2s 3 1 .msb .rising) 16 (wave 16 0xF00F) (wave 16 0xAAAA) (wave 16 0x0880) [] Work.initial
    s.status.busy = true ∧ s.phase = .scan ∧ s.w.i = 1 ∧ s.w.fe = [] ∧ s.w.be = [] ∧
      s.edgeList 0 .any = .ok [4, 12] ∧
      s.edgeList 1 (if ClockEdge.rising = .rising then .rising else .falling) = .ok [1, 3, 5, 7, 9, 11, 13, 15] := by
  decide +kernel

/-- I2S in its word loop, at the pair 4, 12 or with too few bit-clock edges. -/
def halves (be : List Nat) : State :=
  { at_ (.i2s 3 1 .msb .rising) 16 (wave 16 0xF00F) (wave 16 0xAAAA) (wave 16 0x0880) []
      { Work.initial with fe := [4, 12], be := be } with phase := .words }

theorem witness_I2sWordOfAHalf :
    (let s := halves [1, 3, 5, 7, 9, 11, 13, 15]
     s.phase = .words ∧ s.w.fe[s.w.k]? = some 4 ∧ s.w.fe[s.w.k + 1]? = some 12 ∧ s.Room ∧
       (3#6) ≠ 0 ∧ (1#4).toNat + (3#6).toNat ≤ (s.w.be.filter (4 < ·)).length ∧
       (s.w.be.filter (4 < ·))[(1#4).toNat]? = some 7 ∧ 7 < 12 ∧
       (∀ j, j < (3#6).toNat → s.smp 2 ((s.w.be.filter (4 < ·)).getD ((1#4).toNat + j) 0) = .ok (decide (j ≠ 1))) ∧
       s.smp 0 4 = .ok false) ∧
    (let s := { halves [] with w := { (halves []).w with k := 1 } }
     s.phase = .words ∧ s.w.fe.length ≤ s.w.k + 1) ∧
    ((halves [1, 5, 7, 9]).w.be.filter (4 < ·)).length < (1#4).toNat + (3#6).toNat ∧
    ((halves [5, 12, 13, 14]).w.be.filter (4 < ·))[(1#4).toNat]? = some 12 := by decide +kernel

theorem witness_AnalogThreshold :
    (let vs : List Rat := [0, 3, 0, 3, 1]
     (0 : Rat) ∈ vs ∧ (3 : Rat) ∈ vs ∧ (0 : Rat) ≠ 3 ∧
       (∀ c ∈ vs, c ≠ 0 → vs.count c < vs.count 0 ∨ (vs.count c = vs.count 0 ∧ 0 < c)) ∧
       (∀ c ∈ vs, c ≠ 0 → c ≠ 3 → vs.count c < vs.count 3 ∨ (vs.count c = vs.count 3 ∧ 3 < c))) ∧
    (∀ a ∈ ([2, 2] : List Rat), ∀ b ∈ ([2, 2] : List Rat), a = b) ∧
    (let s := { full (.uart 8 .none false true true) with w := { Work.initial with theta := some 1 } }
     17 < s.n ∧ s.ach 17 = some 2 ∧ s.w.theta = some 1) ∧
    (let s := full (.uart 8 .none false true true)
     0 < s.n ∧ s.ach 0 = some 0) := by decide +kernel

theorem witness_FirstStepAndUartScan : (∀ i ∈ someOps, (full i).Ready i) ∧
    (let s := at_ (.uart 5 .none false true false) 2 (wave 2 0b10) [] [] [] { Work.initial with i := 1 }
     s.phase = .scan ∧ s.w.i < s.n ∧ s.smp 0 s.w.i = .ok true ∧ s.status.busy = true) ∧
    (let s := at_ (.uart 5 .none false true true) 18 [] [] [] [] { Work.initial with i := 17, theta := some 1 }
     let t := { s with ach0 := (full .i2c).ach0, cfg := (full .i2c).cfg }
     t.phase = .scan ∧ t.w.i < t.n ∧ t.ach t.w.i = some 2 ∧ t.w.theta = some 1 ∧ (1 : Rat) < 2 ∧ t.status.busy = true) ∧
    (let s := at_ (.uart 5 .none false true false) 2 (wave 2 0b10) [] [] [] { Work.initial with i := 2 }
     s.phase = .scan ∧ s.n ≤ s.w.i) := by decide +kernel

theorem witness_BaudPeriodIsExact :
    let op : Latched := { n := 0, spNum := 1, spDen := 1000000, baud := 0xFFFFFFFF }
    op.spNum ≠ 0 ∧ op.spDen ≠ 0 ∧ op.baud ≠ 0 := by decide

theorem witness_RoundTieIsNearest : 0 < 4 ∧ 2 * (10 % 4) = 4 := by decide

/-- Two runs of two samples and one of four. -/
def someRuns : List Run :=
  [{ level := true, start := 0, len := 2 }, { level := false, start := 2, len := 4 },
   { level := true, start := 6, len := 2 }]

theorem witness_BitIndexMap : 0 < 2 ∧ 0 < 1 ∧ 1 ≤ 2 ∧ Contiguous 0 someRuns ∧
    ({ level := false, start := 2, len := 4 } : Run) ∈ someRuns ∧
    1 < copies .halfEven 2 1 { level := false, start := 2, len := 4 } ∧
    someRuns = [{ level := true, start := 0, len := 2 }] ++
      { level := false, start := 2, len := 4 } :: [{ level := true, start := 6, len := 2 }] := by
  simp only [Contiguous, someRuns]; decide

theorem witness_AutobaudIsLeastRepeatedLength : 2 ≤ someRuns.countP (fun r => r.len == 2) ∧
    (∀ l, l < 2 → someRuns.countP (fun r => r.len == l) < 2) := by decide

/-- UART about to find its bit period, with the given capacity. -/
def atPeriod (cap : Word) (runs : List Run) (au : Bool) : State :=
  { full (.uart 5 .none false au false) with
    phase := .period
    cfg := { Params.default with bitsCap := cap }
    w := { Work.initial with runs := runs } }

theorem witness_UartPeriodOutcomes :
    (let s := atPeriod 100 [{ level := true, start := 0, len := 9 }] true
     s.status.busy = true ∧ s.phase = .period ∧ s.tainted = false ∧ s.uartBslen = 0 ∧ s.w.bits = [] ∧ s.w.bidx = [] ∧
       autobaud (histogram s.w.runs) = none) ∧
    (let s := atPeriod 3 someRuns true
     s.phase = .period ∧ s.tainted = false ∧ s.uartBslen = 0 ∧ autobaud (histogram s.w.runs) = some 2 ∧
       s.cfg.bitsCap.toNat < streamLength s.cfg.uartTie 2 1 s.w.runs) ∧
    (let s := atPeriod 4 someRuns true
     streamLength s.cfg.uartTie 2 1 s.w.runs ≤ s.cfg.bitsCap.toNat ∧ streamLength s.cfg.uartTie 2 1 s.w.runs < 7) ∧
    (let s := atPeriod 100 [{ level := true, start := 0, len := 28 }] false
     s.phase = .period ∧ s.tainted = false ∧ s.uartBslen = 0 ∧ baudPeriod s.op = (4, 1) ∧
       streamLength s.cfg.uartTie 4 1 s.w.runs ≤ s.cfg.bitsCap.toNat ∧
       1 + (5#4).toNat + 0 + 1 ≤ streamLength s.cfg.uartTie 4 1 s.w.runs) := by decide +kernel

/-- A frame of the data bits 1 0 1 0 1 in seven bits, with one idle bit before it. -/
def atWalk (p : Nat) : State :=
  { full (.uart 5 .none false false false) with
    phase := .walk
    w := { Work.initial with bits := [true, false, true, false, true, false, true, true],
                             bidx := [0, 2, 4, 6, 8, 10, 12, 14], frame := 7, p := p } }

theorem witness_SearchSelectsFirstBest :
    let s := { atWalk 0 with phase := .search }
    s.status.busy = true ∧ s.phase = .search ∧ s.w.o = 0 ∧ s.w.best = 0 ∧ s.w.bestcnt = 0 ∧ 0 < s.w.frame := by
  decide +kernel

/-- The annotations of the frame at position 1. -/
def walkFrame : List Annotation :=
  [{ label := .uartStart, colour := .event, start := 2, stop := 4, payload := .none },
   { label := .data, colour := .data, start := 4, stop := 14, payload := .int 0b10101 5 },
   { label := .uartStop, colour := .event, start := 14, stop := 18, payload := .none }]

theorem witness_FrameWalk :
    ((atWalk 2).phase = .walk ∧ (atWalk 2).w.bits.length < (atWalk 2).w.p + (atWalk 2).w.frame) ∧
    ((atWalk 0).w.p + (atWalk 0).w.frame ≤ (atWalk 0).w.bits.length ∧ (atWalk 0).w.bits.getD 0 false = true) ∧
    (let s := atWalk 1
     s.phase = .walk ∧ s.w.p + s.w.frame ≤ s.w.bits.length ∧
       s.outCount.toNat + walkFrame.length ≤ s.cfg.outCap.toNat ∧
       s.w.bits.getD s.w.p false = false ∧ s.w.bits.getD (s.w.p + s.w.frame - 1) false = true ∧
       ((List.range (5#4).toNat).map fun j => (s.w.bits.getD (s.w.p + 1 + j) false).toNat * 2 ^ j).sum = 0b10101 ∧
       walkFrame = frameAnnotations 5 .none false s) ∧
    (let s := { atWalk 1 with cfg := { Params.default with outCap := 2 } }
     s.cfg.outCap.toNat < s.outCount.toNat + walkFrame.length) := by decide +kernel

/-- Vector V60 in small: OUT holds two records, so START and D are written and the operation ends with OUT_OVERFLOW. -/
theorem test_uart_overflow : answers (move (.uart 5 .none false false false)
      { atWalk 1 with cfg := { Params.default with outCap := 2 } })
    (fun t => t.status.word == 0x12 && (recordsOf t).map (·.label) == [0x15, 0x13]) = true := by decide +kernel

/-- R139 in every other decoder: with OUT full from the start the first annotation ends the operation. -/
theorem test_out_full : ∀ i ∈ [Instr.onewire, .spi3 7, .spi4 false .rising, .i2c, .sync .rising, .i2s 1 0 .lsb .falling],
    answers (step { (if i = .onewire then begun i 40 (List.replicate 2 true ++ List.replicate 25 false ++
          List.replicate 13 true) [] [] []
        else if i = .i2c then begun i 48 i2cScl i2cSda [] []
        else if i = .sync .rising then begun i 18 (wave 18 0x2AAAA) (wave 18 0x08002) [] []
        else if i = .i2s 1 0 .lsb .falling then begun i 16 (wave 16 0xF00F) (wave 16 0xAAAA) (wave 16 0x0880) []
        else begun i 41 spiNcs spiClk spiMosi spiNcs) with
      cfg := { Params.default with outCap := 0 } })
    (fun t => t.status.word == 0x12 && t.outCount == 0 && t.out == []) = true := by decide +kernel

theorem witness_UartOperationOutcome :
    (∀ au : Bool, let s := { begun (.uart 5 .none false au false) 22 uartWave [] [] [] with
                             op := { n := 22, spNum := 1, spDen := 1000000, baud := 500000 } }
     s.Ready (.uart 5 .none false au false) ∧ s.tainted = false ∧ uartWave.length = s.n ∧
       (∀ i, i < s.n → s.smp 0 i = .ok (uartWave.getD i false))) ∧
    (let i := Instr.uart 8 .none false true true
     let s := full i
     s.Ready i ∧ s.tainted = false ∧ thresholdOf ((List.range s.n).filterMap s.ach) = some (1 / 2) ∧
       ∀ j, j < s.n → ∃ v : Fin 3, s.ach j = some (v.val : Rat) ∧
         (((List.range s.n).map fun k => decide (k % 3 ≠ 0)).getD j false = true ↔ (1 / 2 : Rat) < (v.val : Rat))) ∧
    ¬streamLength .halfEven 2 1 (runsOf uartWave) ≤ (2#32).toNat ∧
    autobaud (histogram (runsOf uartWave)) = some 2 ∧
    baudPeriod { n := 22, spNum := 1, spDen := 1000000, baud := 500000 } = (2, 1) ∧
    streamLength .halfEven 2 1 (runsOf uartWave) = 11 ∧
    autobaud (histogram (runsOf (List.replicate 20 true))) = none := by decide +kernel

/-- A start marker at 5 and a stop marker over [7, 9) in OUT, the post-pass at record j. -/
def atWiden (j : Nat) : State :=
  { (((full .i2c).pushRecord { label := .sMark, colour := .event, start := 5, stop := 5, payload := .none }).pushRecord
      { label := .pMark, colour := .event, start := 7, stop := 9, payload := .none }) with
    phase := .widen
    w := { Work.initial with j := j } }

theorem witness_WidenOneRecord :
    (let s := atWiden 0
     widens .i2c = true ∧ s.phase = .widen ∧ s.w.j < s.outCount.toNat ∧ recLabel s.out s.w.j = 0x01 ∧
       recStart s.out s.w.j = recStop s.out s.w.j ∧ s.w.j < 1 ∧ 1 < s.outCount.toNat ∧ recLabel s.out 1 = 0x02 ∧
       (∀ m', m' < 1 → s.w.j < m' → recLabel s.out m' ≠ 0x02)) ∧
    (let s := { full .i2c with phase := .scan, w := { Work.initial with i := 18 } }
     s.phase = .scan ∧ s.n ≤ s.w.i) ∧
    ((atWiden 2).phase = .widen ∧ (atWiden 2).outCount.toNat ≤ (atWiden 2).w.j) ∧
    (let s := atWiden 1
     s.phase = .widen ∧ s.w.j < s.outCount.toNat ∧ recLabel s.out s.w.j ≠ 0x01) := by decide +kernel

theorem witness_WidenKeepsOrder :
    (widens .i2c = true ∧ (atWiden 0).status.busy = true ∧ (atWiden 0).tainted = false ∧
      (atWiden 0).phase = .widen ∧ (atWiden 0).w.j = 0) ∧
    Ordered (atWiden 0).out (atWiden 0).outCount.toNat := by
  refine ⟨by decide +kernel, ⟨by decide +kernel, ?_⟩⟩
  have h : ∀ k, k < 2 → k + 1 < (atWiden 0).outCount.toNat →
      recStart (atWiden 0).out k ≤ recStart (atWiden 0).out (k + 1) := by decide +kernel
  have hn : (atWiden 0).outCount.toNat = 2 := by decide +kernel
  exact fun k hk => h k (by omega) hk

end Sys2Proof.Tests
end

section
/-! Register accesses of the host (O7, O9, O10, O12, O13). -/

namespace Sys2Proof.Machine

/-! ## Register accesses at PEX_BASE plus an offset -/

theorem regAccessOk_word {off : BitVec 8} (h : off.toNat % 4 = 0) : regAccessOk off .word = true := by
  simp [regAccessOk, h]

theorem regAccessOk_false {off : BitVec 8} {acc : Access} (h : acc ≠ .word ∨ off.toNat % 4 ≠ 0) :
    regAccessOk off acc = false := by
  cases acc with
  | byte | half => rfl
  | word => simpa [regAccessOk] using h

/-- An aligned word write at a register's host address is that register write (20_memory.md R45). -/
theorem hostAct_regWrite_word (s : State) (off : BitVec 8) (v : Word) (h : off.toNat % 4 = 0) :
    hostAct (.regWrite (s.cfg.pexBase + off.toNat) .word v) s = .next (s.regWrite off v) := by
  simp [hostAct, regAct_base, regAccessOk_word h]

/-- An aligned word read at a register's host address is that register read (20_memory.md R45). -/
theorem hostAct_regRead_word (s : State) (off : BitVec 8) (h : off.toNat % 4 = 0) :
    hostAct (.regRead (s.cfg.pexBase + off.toNat) .word) s = .next (s.regRead off) := by
  simp [hostAct, regAct_base, regAccessOk_word h]

/-! ## Register writes -/

/-- While BUSY = 1 a register write is ignored (10_state.md R19 to R22). -/
theorem regWrite_of_busy {s : State} (off : BitVec 8) (v : Word) (h : s.status.busy = true) :
    s.regWrite off v = s := by
  simp [State.regWrite, h]

/-- A write to a read-only or reserved offset has no effect (10_state.md R23 to R25). -/
theorem regWrite_readOnly (s : State) {off : BitVec 8} (v : Word) (h : 0x14 ≤ off.toNat) :
    s.regWrite off v = s := by
  unfold State.regWrite
  split
  · rfl
  · split
    case h_6 => rfl
    all_goals omega

theorem regWrite_cmd {s : State} (v : Word) (h : s.status.busy = false) :
    s.regWrite 0x00 v = s.startCommand v := by simp [State.regWrite, h]

theorem regWrite_len {s : State} (v : Word) (h : s.status.busy = false) :
    s.regWrite 0x04 v = { s with len := v } := by simp [State.regWrite, h]

theorem regWrite_spNum {s : State} (v : Word) (h : s.status.busy = false) :
    s.regWrite 0x08 v = { s with spNum := v } := by simp [State.regWrite, h]

theorem regWrite_spDen {s : State} (v : Word) (h : s.status.busy = false) :
    s.regWrite 0x0C v = { s with spDen := v } := by simp [State.regWrite, h]

theorem regWrite_baud {s : State} (v : Word) (h : s.status.busy = false) :
    s.regWrite 0x10 v = { s with baud := v } := by simp [State.regWrite, h]

/-- Settles O9: each register's write, and the two kinds of write that have no effect. -/
theorem registerWrites : Obligations.RegisterWrites := by
  intro s v
  refine ⟨fun hidle => ⟨?_, ?_, ?_, ?_, rfl, rfl, rfl, rfl⟩, fun off hal hno => ?_⟩
  · exact (hostAct_regWrite_word s 0x04 v rfl).trans (congrArg _ (regWrite_len v hidle))
  · exact (hostAct_regWrite_word s 0x08 v rfl).trans (congrArg _ (regWrite_spNum v hidle))
  · exact (hostAct_regWrite_word s 0x0C v rfl).trans (congrArg _ (regWrite_spDen v hidle))
  · exact (hostAct_regWrite_word s 0x10 v rfl).trans (congrArg _ (regWrite_baud v hidle))
  · rw [hostAct_regWrite_word s off v hal]
    obtain hbusy | hro := hno
    · rw [regWrite_of_busy off v hbusy]
    · rw [regWrite_readOnly s v hro]

/-- Settles O12: the write is `startCommand`, whose fields are the statement's. -/
theorem commandWriteStarts : Obligations.CommandWriteStarts := by
  intro s c hidle
  exact (hostAct_regWrite_word s 0x00 c rfl).trans (congrArg _ (regWrite_cmd c hidle))

/-! ## Register reads -/

/-- A reserved offset reads 0 in every state (10_state.md R18). -/
theorem regValue_reserved (s : State) {off : BitVec 8} (h : 0x30 ≤ off.toNat) : s.regValue off = 0 := by
  unfold State.regValue
  split
  case h_13 => rfl
  all_goals omega

/-- Which reads answer any value (10_state.md R24, 93 I3). -/
theorem readsAnyValue_iff (s : State) (off : BitVec 8) : s.readsAnyValue off = true ↔
    s.status.busy = true ∧ (off = 0x18 ∨ (s.tainted = true ∧ 0x1C ≤ off.toNat ∧ off.toNat ≤ 0x2C)) := by
  simp [State.readsAnyValue]

theorem regRead_of_value {s : State} {off : BitVec 8} (h : ¬ s.readsAnyValue off = true) :
    s.regRead off = { s with hostData := s.regValue off } := by
  simp [State.regRead, h]

theorem regRead_of_anyValue {s : State} {off : BitVec 8} (h : s.readsAnyValue off = true) :
    s.regRead off = { s with hostData := Config.freeWord s.free, free := s.free + 1 } := by
  simp [State.regRead, State.draw, h]

/-- The two halves of BP_DEN (10_state.md R25). -/
theorem regValue_bpDenLo (s : State) : (s.regValue 0x20).toNat = s.bpDen.toNat % 2 ^ 32 := by
  simp [State.regValue]

theorem regValue_bpDenHi (s : State) : (s.regValue 0x24).toNat = s.bpDen.toNat / 2 ^ 32 := by
  have hlt := s.bpDen.isLt
  change (s.bpDen.extractLsb' 32 32).toNat = _
  rw [BitVec.extractLsb'_toNat, Nat.shiftRight_eq_div_pow]
  omega

/-- Settles O10: by whether the read is one of those that answer any value. -/
theorem registerReads : Obligations.RegisterReads := by
  intro s off hal
  rw [hostAct_regRead_word s off hal]
  refine ⟨fun hval => ?_, fun hbusy hany => ?_,
    rfl, rfl, rfl, rfl, rfl, rfl, rfl, regValue_bpDenLo s, regValue_bpDenHi s, rfl, rfl⟩
  · have hno : ¬ s.readsAnyValue off = true := by
      rw [readsAnyValue_iff]
      rintro ⟨hbusy, h18 | ⟨htaint, hlo, hhi⟩⟩
      · simp [hbusy, h18] at hval
      · simp [hbusy, htaint] at hval; omega
    rw [regRead_of_value hno]
  · exact ⟨_, congrArg _ (regRead_of_anyValue ((readsAnyValue_iff s off).2 ⟨hbusy, hany⟩))⟩

/-- Settles O7: the reset state's registers and parameters by evaluation, the reserved offsets in every state. -/
theorem resetRegisterValues : Obligations.ResetRegisterValues := by
  refine ⟨rfl, rfl, rfl, rfl, rfl, rfl, rfl, rfl, rfl, rfl, rfl, rfl, fun s off h => regValue_reserved s h, ?_⟩
  decide

/-- Settles O13: inside the block by the width and alignment test, outside by the address test. -/
theorem misalignedRegisterAccess : Obligations.MisalignedRegisterAccess := by
  intro s acc v
  refine ⟨fun off hbad => ?_, fun addr hout => ⟨regAct_outside _ _ hout, regAct_outside _ _ hout⟩⟩
  have hno := regAccessOk_false hbad
  simp [hostAct, regAct_base, hno]

end Sys2Proof.Machine
end

section
/-! Rounding, the bitstream and its map to samples (O52, O53). -/

namespace Sys2Proof.Machine

/-! ## Rounding -/

/-- The three branches of `roundTie` in one place: the quotient when the remainder is less than half, the next integer
when it is more, and on an exact half one of the two by the tie rule (00_scope.md R11). -/
theorem roundTie_cases (tie : Tie) (a b : Nat) :
    (2 * (a % b) < b ∧ roundTie tie a b = a / b) ∨
    (b < 2 * (a % b) ∧ roundTie tie a b = a / b + 1) ∨
    (2 * (a % b) = b ∧ tie = .halfEven ∧
      (a / b % 2 = 0 ∧ roundTie tie a b = a / b ∨ a / b % 2 = 1 ∧ roundTie tie a b = a / b + 1)) ∨
    (2 * (a % b) = b ∧ tie = .halfUp ∧ roundTie tie a b = a / b + 1) := by
  unfold roundTie
  by_cases hlt : 2 * (a % b) < b
  · simp [hlt]
  by_cases hgt : b < 2 * (a % b)
  · simp [hlt, hgt]
  have heq : 2 * (a % b) = b := by omega
  cases tie with
  | halfEven =>
    by_cases heven : a / b % 2 = 0
    · simp [heq, heven]
    · simp [heq, Nat.mod_two_ne_zero.1 heven]
  | halfUp => simp [heq]

/-- Settles O52: branch by branch, with `a = b * (a / b) + a % b`. -/
theorem roundTieIsNearest : Obligations.RoundTieIsNearest := by
  intro tie a b hb
  have hdiv := Nat.div_add_mod' a b
  have hmod := Nat.mod_lt a hb
  have hcases := roundTie_cases tie a b
  generalize a / b = q, a % b = r, roundTie tie a b = t at hdiv hmod hcases ⊢
  have hup : (q + 1) * b = q * b + b := Nat.succ_mul q b
  obtain ⟨hr, rfl⟩ | ⟨hr, rfl⟩ | ⟨hr, rfl, ⟨he, rfl⟩ | ⟨he, rfl⟩⟩ | ⟨hr, rfl, rfl⟩ := hcases
  · exact ⟨by omega, by omega, by omega, by omega⟩
  · exact ⟨by omega, by omega, by omega, by omega⟩
  · exact ⟨by omega, by omega, fun _ _ => he, nofun⟩
  · exact ⟨by omega, by omega, by omega, nofun⟩
  · exact ⟨by omega, by omega, nofun, by omega⟩

/-! ## The bitstream and its map to samples -/

section Stream

variable (tie : Tie) (pNum pDen : Nat)

@[simp] theorem streamLength_nil : streamLength tie pNum pDen [] = 0 := rfl

@[simp] theorem streamLength_cons (r : Run) (rs : List Run) :
    streamLength tie pNum pDen (r :: rs) = copies tie pNum pDen r + streamLength tie pNum pDen rs := rfl

/-- BIDX's entries of one run: copy u starts at sample start + floor(u · P) (46_uart.md R119). -/
def runIndex (r : Run) : List Nat :=
  (List.range (copies tie pNum pDen r)).map fun u => r.start + u * pNum / pDen

@[simp] theorem length_runIndex (r : Run) : (runIndex tie pNum pDen r).length = copies tie pNum pDen r := by
  simp [runIndex]

@[simp] theorem streamIndex_nil : streamIndex tie pNum pDen [] = [] := rfl

@[simp] theorem streamIndex_cons (r : Run) (rs : List Run) :
    streamIndex tie pNum pDen (r :: rs) = runIndex tie pNum pDen r ++ streamIndex tie pNum pDen rs := rfl

@[simp] theorem streamBits_nil : streamBits tie pNum pDen [] = [] := rfl

@[simp] theorem streamBits_cons (r : Run) (rs : List Run) :
    streamBits tie pNum pDen (r :: rs) =
      List.replicate (copies tie pNum pDen r) r.level ++ streamBits tie pNum pDen rs := rfl

theorem length_streamBits (runs : List Run) :
    (streamBits tie pNum pDen runs).length = streamLength tie pNum pDen runs := by
  induction runs with
  | nil => rfl
  | cons r rs ih => simp [ih]

theorem length_streamIndex (runs : List Run) :
    (streamIndex tie pNum pDen runs).length = streamLength tie pNum pDen runs := by
  induction runs with
  | nil => rfl
  | cons r rs ih => simp [ih]

theorem streamBits_append (front back : List Run) : streamBits tie pNum pDen (front ++ back) =
    streamBits tie pNum pDen front ++ streamBits tie pNum pDen back := List.flatMap_append

theorem streamIndex_append (front back : List Run) : streamIndex tie pNum pDen (front ++ back) =
    streamIndex tie pNum pDen front ++ streamIndex tie pNum pDen back := List.flatMap_append

/-- Copy u of a run holds the run's level, at the position that counts the copies before it (46_uart.md R118). -/
theorem streamBits_getElem? (front back : List Run) {r : Run} {u : Nat} (hu : u < copies tie pNum pDen r) :
    (streamBits tie pNum pDen (front ++ r :: back))[streamLength tie pNum pDen front + u]? = some r.level := by
  rw [streamBits_append, ← length_streamBits, List.getElem?_append_right (Nat.le_add_right ..),
    Nat.add_sub_cancel_left, streamBits_cons, List.getElem?_append_left (by simpa using hu)]
  simp [hu]

/-- Copy u of a run starts at sample start + floor(u · P), at the same position (46_uart.md R119). -/
theorem streamIndex_getElem? (front back : List Run) {r : Run} {u : Nat} (hu : u < copies tie pNum pDen r) :
    (streamIndex tie pNum pDen (front ++ r :: back))[streamLength tie pNum pDen front + u]? =
      some (r.start + u * pNum / pDen) := by
  rw [streamIndex_append, ← length_streamIndex, List.getElem?_append_right (Nat.le_add_right ..),
    Nat.add_sub_cancel_left, streamIndex_cons, List.getElem?_append_left (by simpa using hu)]
  simp [runIndex, hu]

/-- `streamEntry` walks the two lists in step (46_uart.md R118, R119). -/
theorem streamEntry_eq (runs : List Run) (b : Nat) :
    streamEntry tie pNum pDen runs b =
      match (streamBits tie pNum pDen runs)[b]?, (streamIndex tie pNum pDen runs)[b]? with
      | some v, some x => some (v, x)
      | _, _ => none := by
  induction runs generalizing b with
  | nil => rfl
  | cons r rs ih =>
    by_cases hb : b < copies tie pNum pDen r
    · simp [streamEntry, hb, runIndex, List.getElem?_append]
    · simp [streamEntry, hb, ih, List.getElem?_append]

variable {pNum pDen}

/-- A copy starts inside its run: c ≤ len / P + 1/2, so u ≤ c - 1 gives u · P < len (46_uart.md R119). -/
theorem copy_lt_len {r : Run} {u : Nat} (hnum : 0 < pNum) (hden : 0 < pDen) (hu : u < copies tie pNum pDen r) :
    u * pNum / pDen < r.len := by
  obtain ⟨hnear, -⟩ := roundTieIsNearest tie (r.len * pDen) pNum hnum
  have hle : (u + 1) * pNum ≤ copies tie pNum pDen r * pNum := Nat.mul_le_mul_right _ hu
  rw [Nat.succ_mul] at hle
  rw [Nat.div_lt_iff_lt_mul hden]
  simp only [copies] at hle
  omega

theorem mem_runIndex_bounds {r : Run} {x : Nat} (hnum : 0 < pNum) (hden : 0 < pDen)
    (hx : x ∈ runIndex tie pNum pDen r) : r.start ≤ x ∧ x < r.start + r.len := by
  simp only [runIndex, List.mem_map, List.mem_range] at hx
  obtain ⟨u, hu, rfl⟩ := hx
  exact ⟨Nat.le_add_right .., Nat.add_lt_add_left (copy_lt_len tie hnum hden hu) _⟩

/-- No entry of BIDX lies before the first of the runs. -/
theorem le_of_mem_streamIndex (hnum : 0 < pNum) (hden : 0 < pDen) {runs : List Run} {a x : Nat}
    (hc : Contiguous a runs) (hx : x ∈ streamIndex tie pNum pDen runs) : a ≤ x := by
  induction runs generalizing a with
  | nil => simp at hx
  | cons r rs ih =>
    obtain ⟨hstart, -, hrest⟩ := hc
    rw [streamIndex_cons, List.mem_append] at hx
    obtain hx | hx := hx
    · exact hstart ▸ (mem_runIndex_bounds tie hnum hden hx).1
    · have := ih hrest hx
      omega

/-- BIDX is ordered by `R` when the copies of each run are, and `R` holds of entries of different runs because the
later one is larger. -/
theorem pairwise_streamIndex {R : Nat → Nat → Prop} (hlt : ∀ x y, x < y → R x y) (hnum : 0 < pNum)
    (hden : 0 < pDen) (hrun : ∀ r, (runIndex tie pNum pDen r).Pairwise R) {runs : List Run} {a : Nat} (hc : Contiguous a runs) :
    (streamIndex tie pNum pDen runs).Pairwise R := by
  induction runs generalizing a with
  | nil => exact .nil
  | cons r rs ih =>
    obtain ⟨hstart, -, hrest⟩ := hc
    refine List.pairwise_append.2 ⟨hrun r, ih hrest, fun x hx y hy => hlt x y ?_⟩
    have hx' := mem_runIndex_bounds tie hnum hden hx
    have hy' := le_of_mem_streamIndex tie hnum hden hrest hy
    omega

theorem pairwise_le_runIndex (r : Run) : (runIndex tie pNum pDen r).Pairwise (· ≤ ·) :=
  List.pairwise_map.2 <| List.pairwise_lt_range.imp fun huv =>
    Nat.add_le_add_left (Nat.div_le_div_right (Nat.mul_le_mul_right _ (Nat.le_of_lt huv))) _

/-- With P at least 1 the next copy starts at least one sample later. -/
theorem pairwise_lt_runIndex (hden : 0 < pDen) (hp : pDen ≤ pNum) (r : Run) :
    (runIndex tie pNum pDen r).Pairwise (· < ·) :=
  List.pairwise_map.2 <| List.pairwise_lt_range.imp fun {u v} huv => by
    have hstep : u * pNum / pDen + 1 ≤ v * pNum / pDen := by
      calc u * pNum / pDen + 1 = (u * pNum + pDen) / pDen := (Nat.add_div_right _ hden).symm
        _ ≤ (u + 1) * pNum / pDen := Nat.div_le_div_right (by rw [Nat.succ_mul]; omega)
        _ ≤ v * pNum / pDen := Nat.div_le_div_right (Nat.mul_le_mul_right _ huv)
    omega

end Stream

/-- Settles O53: the lists run by run; the order from the bounds of each run's entries. -/
theorem bitIndexMap : Obligations.BitIndexMap := by
  refine ⟨fun _ _ _ _ => rfl, fun _ _ _ _ => rfl, fun tie pNum pDen runs hnum hden hc => ⟨?_, ?_, ?_, ?_, ?_, ?_⟩⟩
  · exact length_streamBits ..
  · exact length_streamIndex ..
  · exact pairwise_streamIndex tie (fun _ _ => Nat.le_of_lt) hnum hden (pairwise_le_runIndex tie) hc
  · exact fun hp => pairwise_streamIndex tie (fun _ _ => id) hnum hden (pairwise_lt_runIndex tie hden hp) hc
  · rintro front back r u rfl hu
    exact ⟨streamBits_getElem? tie pNum pDen front back hu, streamIndex_getElem? tie pNum pDen front back hu,
      Nat.add_lt_add_left (copy_lt_len tie hnum hden hu) _⟩
  · exact streamEntry_eq tie pNum pDen runs

end Sys2Proof.Machine
end

section
/-! What no micro-step reads or writes, and a run of an operation as its micro-steps (O6). -/

namespace Sys2Proof.Machine

/-! ## What no micro-step reads or writes -/

/-- `s` with the host's side of `h`: CMD and the parameter registers, the script and the data last read. A running
operation has latched its operands (60 R136), so its micro-steps neither read nor write these fields. -/
def State.withHostOf (s h : State) : State :=
  { s with
    cmd := h.cmd
    len := h.len
    spNum := h.spNum
    spDen := h.spDen
    baud := h.baud
    script := h.script
    hostData := h.hostData }

/-- The outcome with its next state, if there is one, changed by `f`. -/
def mapNext (f : State → State) : Host.Outcome State Fault Refusal → Host.Outcome State Fault Refusal
  | .next s => .next (f s)
  | .fault e => .fault e
  | .refused r => .refused r

/-- `f` neither reads nor writes the host's side. -/
def HostBlind (f : State → State) : Prop := ∀ s h : State, f (s.withHostOf h) = (f s).withHostOf h

/-- `HostBlind` of a step that may fault. -/
def HostBlindStep (f : State → Except Fault State) : Prop :=
  ∀ s h : State, f (s.withHostOf h) = (f s).map (·.withHostOf h)

/-- `HostBlind` of a micro-step. -/
def HostBlindMove (m : State → Host.Outcome State Fault Refusal) : Prop :=
  ∀ s h : State, m (s.withHostOf h) = mapNext (·.withHostOf h) (m s)

theorem HostBlind.id : HostBlind fun s => s := fun _ _ => rfl

theorem HostBlind.ite {p : State → Prop} [DecidablePred p] {f g : State → State}
    (hp : ∀ s h, p (s.withHostOf h) ↔ p s) (hf : HostBlind f) (hg : HostBlind g) :
    HostBlind fun s => if p s then f s else g s := by
  intro s h
  by_cases hs : p s
  · simp only [hs, (hp s h).2 hs, if_true, hf s h]
  · simp only [hs, mt (hp s h).1 hs, if_false, hg s h]

theorem HostBlind.iteConst {c : Prop} [Decidable c] {f g : State → State} (hf : HostBlind f) (hg : HostBlind g) :
    HostBlind fun s => if c then f s else g s :=
  .ite (fun _ _ => .rfl) hf hg

theorem HostBlind.comp {f g : State → State} (hf : HostBlind f) (hg : HostBlind g) :
    HostBlind fun s => f (g s) := fun s h => by
  simp only [hg s h, hf (g s) h]

/-! ### The shared operations -/

theorem hostBlind_finish (r : Result) : HostBlind (·.finish r) := by
  intro s h
  cases ht : s.tainted with
  | false =>
    simp only [State.finish_of_not_tainted (s := s) ht, State.finish_of_not_tainted (s := s.withHostOf h) ht]
    rfl
  | true => simp only [finish_spoiled (s := s) r ht, finish_spoiled (s := s.withHostOf h) r ht]; rfl

theorem hostBlind_advance : HostBlind State.advance :=
  .ite (fun _ _ => .rfl) (fun _ _ => rfl) .id

theorem hostBlind_emitAll {k : State → State} (hk : HostBlind k) :
    ∀ as : List Annotation, HostBlind fun s => State.emitAll as s k
  | [] => hk
  | a :: as => .ite (fun _ _ => .rfl)
      ((hostBlind_emitAll hk as).comp (g := (·.pushRecord a)) fun _ _ => rfl) (hostBlind_finish _)

theorem hostBlind_emit {a : State → Annotation} {k : State → State} (ha : ∀ s h, a (s.withHostOf h) = a s)
    (hk : HostBlind k) : HostBlind fun s => s.emit (a s) k := fun s h => by
  simp only [ha s h]
  exact hostBlind_emitAll hk [a s] s h

theorem hostBlind_emitIndex {k : State → State} (hk : HostBlind k) : HostBlind fun s => s.emitIndex s.w.i k :=
  .ite (fun _ _ => .rfl) (fun s h => hk { s with
      out := writeWord s.out (4 * s.outCount.toNat) (BitVec.ofNat 32 s.w.i)
      outCount := s.outCount + 1 } h) (hostBlind_finish _)

/-! ### Micro-steps -/

theorem HostBlindStep.pure {f : State → State} (hf : HostBlind f) : HostBlindStep fun s => .ok (f s) :=
  fun s h => congrArg Except.ok (hf s h)

/-- A step that first reads something that does not depend on the host's side. -/
theorem HostBlindStep.bind {α : Type} {read : State → Except Fault α} {f : α → State → Except Fault State}
    (hread : ∀ s h, read (s.withHostOf h) = read s) (hf : ∀ a, HostBlindStep (f a)) :
    HostBlindStep fun s => read s >>= fun a => f a s := by
  intro s h
  simp only [hread s h]
  cases read s with
  | error e => rfl
  | ok a => exact hf a s h

theorem HostBlindMove.next {f : State → State} (hf : HostBlind f) : HostBlindMove fun s => .next (f s) :=
  fun s h => congrArg Host.Outcome.next (hf s h)

theorem hostBlindMove_scanMove {stepAt : State → Except Fault State} {atEnd : State → State}
    (hstep : HostBlindStep stepAt) (hend : HostBlind atEnd) : HostBlindMove (scanMove stepAt atEnd) := by
  intro s h
  by_cases hi : s.w.i < s.n
  · have hi' : (s.withHostOf h).w.i < (s.withHostOf h).n := hi
    cases hu : stepAt s with
    | error e => simp [scanMove, hi, hi', hstep s h, hu, Except.map, mapNext]
    | ok u => simp [scanMove, hi, hi', hstep s h, hu, Except.map, mapNext, hostBlind_advance u h]
  · rw [scanMove_of_ge (Nat.le_of_not_lt hi), scanMove_of_ge (s := s.withHostOf h) (Nat.le_of_not_lt hi), hend s h]
    rfl

theorem hostBlindMove_startMove (i : Instr) {enter : State → State} (henter : HostBlind enter) :
    HostBlindMove (startMove i enter) := by
  intro s h
  cases hl : legal i s with
  | false =>
    rw [startMove_of_illegal hl, startMove_of_illegal (s := s.withHostOf h) hl]
    exact congrArg Host.Outcome.next (hostBlind_finish .configError s.clearOutputs h)
  | true =>
    cases hw : samplesWritten i s with
    | false => rw [startMove_of_unwritten hl hw, startMove_of_unwritten (s := s.withHostOf h) hl hw]; rfl
    | true =>
      rw [startMove_of_ready hl hw, startMove_of_ready (s := s.withHostOf h) hl hw]
      exact congrArg Host.Outcome.next (henter { s.clearOutputs with w := Work.initial, phase := .scan } h)

/-! ### EDGES and the post-pass -/

theorem hostBlind_edgesStep (filt : Filter) (l : Bool × Bool) : HostBlind (edgesStep filt l) :=
  .ite (fun _ _ => .rfl) (hostBlind_emitIndex .id) .id

theorem hostBlind_beginWiden : HostBlind State.beginWiden := fun _ _ => rfl

theorem hostBlind_widenMove : HostBlind widenMove :=
  .ite (fun _ _ => .rfl) (fun _ _ => rfl) (hostBlind_finish .ok)

/-! ### 1-Wire -/

theorem hostBlind_owEnter (q : OwState) : HostBlind (·.owEnter q) := fun _ _ => rfl

theorem hostBlind_owEmit {l : Label} {c : Colour} {p : Payload} {q : OwState} : HostBlind (·.owEmit l c p q) :=
  hostBlind_emit (fun _ _ => rfl) (hostBlind_owEnter q)

theorem hostBlind_protocolError (l : Label) : HostBlind (·.protocolError l) :=
  hostBlind_emit (fun _ _ => rfl) (hostBlind_owEnter .idle)

theorem hostBlind_owResetEnd : HostBlind owResetEnd :=
  .ite (fun _ _ => .rfl) hostBlind_owEmit (hostBlind_protocolError _)

theorem hostBlind_owPresenceStart : HostBlind owPresenceStart :=
  .ite (fun _ _ => .rfl) (hostBlind_owEnter _) (hostBlind_protocolError _)

theorem hostBlind_owPresenceEnd : HostBlind owPresenceEnd :=
  .ite (fun _ _ => .rfl) hostBlind_owEmit (hostBlind_protocolError _)

theorem hostBlind_owSlotEnd : HostBlind owSlotEnd :=
  .ite (fun _ _ => .rfl) hostBlind_owEmit <|
    .ite (fun _ _ => .rfl) hostBlind_owEmit hostBlind_owEmit

theorem hostBlind_owWatchdog : HostBlind owWatchdog :=
  .ite (fun _ _ => .rfl) (hostBlind_protocolError _) .id

theorem hostBlind_owStep (l : Bool × Bool) : HostBlind (owStep l) := by
  intro s h
  have hw : (s.withHostOf h).w = s.w := rfl
  unfold owStep
  rw [hw]
  cases s.w.ow with
  | idle | active | one | masterWritingZero | masterReadingZero =>
    exact HostBlind.iteConst (hostBlind_owEnter _) .id s h
  | resetMasterPulse => exact HostBlind.iteConst hostBlind_owResetEnd .id s h
  | resetSlaveWait => exact HostBlind.iteConst hostBlind_owPresenceStart .id s h
  | resetSlavePulse => exact HostBlind.iteConst hostBlind_owPresenceEnd .id s h
  | activeFallen => exact HostBlind.iteConst hostBlind_owSlotEnd hostBlind_owWatchdog s h

/-! ### SPI3 and SPI4 -/

theorem hostBlind_spiOpen : HostBlind spiOpen := hostBlind_emit (fun _ _ => rfl) fun _ _ => rfl

theorem hostBlind_spiClose : HostBlind spiClose := by
  intro s h
  have hw : (s.withHostOf h).w = s.w := rfl
  unfold spiClose
  rw [hw]
  cases s.w.bus with
  | active => exact hostBlind_emitAll (by intro _ _; rfl) [_] s h
  | idle => rfl

theorem hostBlind_spiStep (ncs : Bool × Bool) (sampling : Bool) {bit : State → State} (hbit : HostBlind bit) :
    HostBlind (spiStep ncs sampling bit) :=
  .ite (fun _ _ => .rfl) hostBlind_spiOpen <|
    .ite (fun _ _ => .rfl) hostBlind_spiClose <| .ite (fun _ _ => .rfl) hbit .id

theorem hostBlind_spi3Byte (rwpos : BitVec 3) : HostBlind (spi3Byte rwpos) :=
  .ite (fun _ _ => .rfl) (hostBlind_emit (fun _ _ => rfl) fun _ _ => rfl)
    (hostBlind_emit (fun _ _ => rfl) fun _ _ => rfl)

theorem hostBlind_spi3Bit (rwpos : BitVec 3) (b : Bool) : HostBlind (spi3Bit rwpos b) :=
  .ite (fun _ _ => .rfl) ((hostBlind_spi3Byte rwpos).comp fun _ _ => rfl) fun _ _ => rfl

theorem hostBlind_spi4Byte : HostBlind spi4Byte :=
  .ite (fun _ _ => .rfl) (hostBlind_emit (fun _ _ => rfl) fun _ _ => rfl) <|
    .ite (fun _ _ => .rfl) (hostBlind_emit (fun _ _ => rfl) fun _ _ => rfl)
      (hostBlind_emit (fun _ _ => rfl) fun _ _ => rfl)

theorem hostBlind_spi4Bit (mosi miso : Bool) : HostBlind (spi4Bit mosi miso) :=
  .ite (fun _ _ => .rfl) (hostBlind_spi4Byte.comp fun _ _ => rfl) fun _ _ => rfl

/-! ### I2C -/

theorem hostBlind_i2cStart : HostBlind i2cStart := hostBlind_emit (fun _ _ => rfl) fun _ _ => rfl

theorem hostBlind_i2cStop : HostBlind i2cStop := by
  intro s h
  have hw : (s.withHostOf h).w = s.w := rfl
  unfold i2cStop
  rw [hw]
  cases s.w.bus with
  | active => exact hostBlind_emitAll (by intro _ _; rfl) [_] s h
  | idle => rfl

theorem hostBlind_i2cBit (b : Bool) : HostBlind (i2cBit b) :=
  .ite (fun _ _ => .rfl) (fun _ _ => rfl)
    fun s h => hostBlind_emitAll (by intro _ _; rfl) [_]
      { s with w := { s.w with gs := if s.w.left = 8 then s.w.i else s.w.gs } } h

theorem hostBlind_i2cStep (scl sda : Bool × Bool) : HostBlind (i2cStep scl sda) :=
  .ite (fun _ _ => .rfl) hostBlind_i2cStart <|
    .ite (fun _ _ => .rfl) hostBlind_i2cStop <| .ite (fun _ _ => .rfl) (hostBlind_i2cBit _) .id

/-! ### SYNC -/

theorem hostBlind_syncStep (sampling b : Bool) : HostBlind (syncStep sampling b) :=
  .iteConst (.ite (fun _ _ => .rfl)
    (fun s h => hostBlind_emitAll (by intro _ _; rfl) [_] { s with w := syncShift b s.w } h) fun _ _ => rfl) .id

/-! ### I2S -/

theorem samplesAt_withHostOf (s h : State) (k : BitVec 2) (is : List Nat) :
    samplesAt (s.withHostOf h) k is = samplesAt s k is := by
  induction is with
  | nil => rfl
  | cons i is ih =>
    have hsmp : (s.withHostOf h).smp k i = s.smp k i := rfl
    simp only [samplesAt, ih, hsmp]

theorem hostBlind_i2sWord (bpw : BitVec 6) (delay : BitVec 4) (order : BitOrder) (f g : Nat) :
    HostBlindStep (i2sWord bpw delay order f g) := by
  intro s h
  have hw : (s.withHostOf h).w = s.w := rfl
  unfold i2sWord
  rw [hw]
  cases i2sWindow s.w.be delay.toNat bpw.toNat f g with
  | none => rfl
  | some win =>
    have hlr : (s.withHostOf h).smp 0 f = s.smp 0 f := rfl
    simp only [samplesAt_withHostOf, hlr]
    cases samplesAt s 2 win with
    | error e => rfl
    | ok bs =>
      cases s.smp 0 f with
      | error e => rfl
      | ok lr =>
        exact congrArg Except.ok <| hostBlind_emitAll (by intro _ _; rfl) [_]
          { s with w := { s.w with wordAcc := i2sValue order bs } } h

theorem hostBlind_i2sFrameEdge (l : Bool × Bool) : HostBlind (i2sFrameEdge l) :=
  .ite (fun _ _ => .rfl) (fun _ _ => rfl) .id

theorem hostBlind_i2sBitEdge (bedge : ClockEdge) (l : Bool × Bool) : HostBlind (i2sBitEdge bedge l) :=
  .ite (fun _ _ => .rfl) (fun _ _ => rfl) .id

/-! ### UART -/

theorem hostBlind_uartStream : HostBlind uartStream :=
  .ite (fun _ _ => .rfl) (hostBlind_finish .bitsOverflow) fun _ _ => rfl

theorem hostBlind_setPeriod (p : Nat × Nat) : HostBlind (·.setPeriod p) := fun _ _ => rfl

theorem hostBlind_uartPeriod (auto : Bool) : HostBlind (uartPeriod auto) := by
  intro s h
  have hw : (s.withHostOf h).w = s.w := rfl
  cases auto with
  | false => exact hostBlind_uartStream (s.setPeriod (baudPeriod s.op)) h
  | true =>
    simp only [uartPeriod, if_true, hw]
    cases autobaud (histogram s.w.runs) with
    | none => exact hostBlind_finish .emptyNoPeriod { s with w := { s.w with hist := histogram s.w.runs } } h
    | some k =>
      exact hostBlind_uartStream (({ s with w := { s.w with hist := histogram s.w.runs } }).setPeriod (k, 1)) h

theorem hostBlind_uartResample (dbits : BitVec 4) (par : Parity) (stop2 : Bool) :
    HostBlind (uartResample dbits par stop2) := by
  intro s h
  have hw : (s.withHostOf h).w = s.w := rfl
  have hcfg : (s.withHostOf h).cfg = s.cfg := rfl
  unfold uartResample
  rw [hw, hcfg]
  cases streamEntry s.cfg.uartTie s.w.pNum s.w.pDen s.w.runs s.w.bits.length with
  | some e => rfl
  | none =>
    by_cases hshort : s.w.bits.length < frameLength dbits par stop2
    · simp only [hshort, if_true]
      exact hostBlind_finish .emptyTooShort { s with
        uartBslen := BitVec.ofNat 32 s.w.bits.length
        w := { s.w with frame := frameLength dbits par stop2 } } h
    · simp only [hshort, if_false]
      rfl

theorem hostBlind_uartSearch : HostBlind uartSearch :=
  .ite (fun _ _ => .rfl) (.ite (fun _ _ => .rfl) (fun _ _ => rfl) fun _ _ => rfl) fun _ _ => rfl

theorem hostBlind_uartWalk (dbits : BitVec 4) (par : Parity) (stop2 : Bool) :
    HostBlind (uartWalk dbits par stop2) :=
  .ite (fun _ _ => .rfl)
    (.ite (fun _ _ => .rfl)
      (fun s h => hostBlind_emitAll (by intro _ _; rfl) (frameAnnotations dbits par stop2 s) s h) fun _ _ => rfl)
    (hostBlind_finish .ok)

theorem hostBlind_uartEnter (analog : Bool) : HostBlind (uartEnter analog) := fun _ _ => rfl

/-! ### One micro-step of any operation -/

theorem hostBlindMove_edges (filt : Filter) (slot : BitVec 2) : HostBlindMove (edgesMove filt slot) := by
  have hscan := hostBlindMove_scanMove (.bind (read := fun s => s.levels slot s.w.i) (fun _ _ => rfl)
    fun l => .pure (hostBlind_edgesStep filt l)) (hostBlind_finish .ok)
  intro s h
  have hphase : (s.withHostOf h).phase = s.phase := rfl
  unfold edgesMove
  rw [hphase]
  cases s.phase with
  | start => exact hostBlindMove_startMove _ .id s h
  | idle | scan | widen | bitEdges | words | period | resample | search | walk => exact hscan s h

theorem hostBlindMove_onewire : HostBlindMove onewireMove := by
  have hscan := hostBlindMove_scanMove (.bind (read := fun s => s.levels 0 s.w.i) (fun _ _ => rfl)
    fun l => .pure (hostBlind_owStep l)) (hostBlind_finish .ok)
  intro s h
  have hphase : (s.withHostOf h).phase = s.phase := rfl
  unfold onewireMove
  rw [hphase]
  cases s.phase with
  | start => exact hostBlindMove_startMove _ .id s h
  | idle | scan | widen | bitEdges | words | period | resample | search | walk => exact hscan s h

theorem hostBlindMove_sync (cpha : ClockEdge) : HostBlindMove (syncMove cpha) := by
  have hscan := hostBlindMove_scanMove (.bind (read := fun s => s.levels 0 s.w.i) (fun _ _ => rfl)
    fun clk => .bind (read := fun s => s.smp 1 s.w.i) (fun _ _ => rfl)
    fun d => .pure (hostBlind_syncStep (edgeHit cpha clk) d)) (hostBlind_finish .ok)
  intro s h
  have hphase : (s.withHostOf h).phase = s.phase := rfl
  unfold syncMove
  rw [hphase]
  cases s.phase with
  | start => exact hostBlindMove_startMove _ .id s h
  | idle | scan | widen | bitEdges | words | period | resample | search | walk => exact hscan s h

theorem hostBlindMove_spi3 (rwpos : BitVec 3) : HostBlindMove (spi3Move rwpos) := by
  have hscan := hostBlindMove_scanMove (.bind (read := fun s => s.levels 0 s.w.i) (fun _ _ => rfl)
    fun ncs => .bind (read := fun s => s.levels 1 s.w.i) (fun _ _ => rfl)
    fun clk => .bind (read := fun s => s.smp 2 s.w.i) (fun _ _ => rfl)
    fun d => .pure (hostBlind_spiStep ncs (rise clk) (hostBlind_spi3Bit rwpos d))) hostBlind_beginWiden
  intro s h
  have hphase : (s.withHostOf h).phase = s.phase := rfl
  unfold spi3Move
  rw [hphase]
  cases s.phase with
  | start => exact hostBlindMove_startMove _ .id s h
  | widen => exact HostBlindMove.next hostBlind_widenMove s h
  | idle | scan | bitEdges | words | period | resample | search | walk => exact hscan s h

theorem hostBlindMove_spi4 (cpol : Bool) (cpha : ClockEdge) : HostBlindMove (spi4Move cpol cpha) := by
  have hscan := hostBlindMove_scanMove (.bind (read := fun s => s.levels 0 s.w.i) (fun _ _ => rfl)
    fun ncs => .bind (read := fun s => s.levels 1 s.w.i) (fun _ _ => rfl)
    fun clk => .bind (read := fun s => s.smp 2 s.w.i) (fun _ _ => rfl)
    fun mosi => .bind (read := fun s => s.smp 3 s.w.i) (fun _ _ => rfl)
    fun miso => .pure (hostBlind_spiStep ncs (edgeHit cpha clk) (hostBlind_spi4Bit mosi miso))) hostBlind_beginWiden
  intro s h
  have hphase : (s.withHostOf h).phase = s.phase := rfl
  unfold spi4Move
  rw [hphase]
  cases s.phase with
  | start => exact hostBlindMove_startMove _ .id s h
  | widen => exact HostBlindMove.next hostBlind_widenMove s h
  | idle | scan | bitEdges | words | period | resample | search | walk => exact hscan s h

theorem hostBlindMove_i2c : HostBlindMove i2cMove := by
  have hscan := hostBlindMove_scanMove (.bind (read := fun s => s.levels 0 s.w.i) (fun _ _ => rfl)
    fun scl => .bind (read := fun s => s.levels 1 s.w.i) (fun _ _ => rfl)
    fun sda => .pure (hostBlind_i2cStep scl sda)) hostBlind_beginWiden
  intro s h
  have hphase : (s.withHostOf h).phase = s.phase := rfl
  unfold i2cMove
  rw [hphase]
  cases s.phase with
  | start => exact hostBlindMove_startMove _ .id s h
  | widen => exact HostBlindMove.next hostBlind_widenMove s h
  | idle | scan | bitEdges | words | period | resample | search | walk => exact hscan s h

theorem hostBlindMove_i2s (bpw : BitVec 6) (delay : BitVec 4) (order : BitOrder) (bedge : ClockEdge) :
    HostBlindMove (i2sMove bpw delay order bedge) := by
  have hscan := hostBlindMove_scanMove (.bind (read := fun s => s.levels 0 s.w.i) (fun _ _ => rfl)
    fun l => .pure (hostBlind_i2sFrameEdge l))
    (atEnd := fun s => { s with phase := .bitEdges, w := { s.w with i := 1 } }) fun _ _ => rfl
  have hbits := hostBlindMove_scanMove (.bind (read := fun s => s.levels 1 s.w.i) (fun _ _ => rfl)
    fun l => .pure (hostBlind_i2sBitEdge bedge l))
    (atEnd := fun s => { s with phase := .words, w := { s.w with k := 0 } }) fun _ _ => rfl
  intro s h
  have hphase : (s.withHostOf h).phase = s.phase := rfl
  have hw : (s.withHostOf h).w = s.w := rfl
  unfold i2sMove
  rw [hphase, hw]
  cases s.phase with
  | start => exact hostBlindMove_startMove _ .id s h
  | scan => exact hscan s h
  | bitEdges => exact hbits s h
  | idle | widen | words | period | resample | search | walk =>
    cases s.w.fe[s.w.k]? with
    | none => exact congrArg Host.Outcome.next (hostBlind_finish .ok s h)
    | some f =>
      cases s.w.fe[s.w.k + 1]? with
      | none => exact congrArg Host.Outcome.next (hostBlind_finish .ok s h)
      | some g =>
        simp only [hostBlind_i2sWord bpw delay order f g s h]
        cases i2sWord bpw delay order f g s <;> rfl

theorem hostBlindMove_uart (dbits : BitVec 4) (par : Parity) (stop2 auto analog : Bool) :
    HostBlindMove (uartMove dbits par stop2 auto analog) := by
  have hscan := hostBlindMove_scanMove (.bind (read := fun s => uartLevel analog s s.w.i) (fun _ _ => rfl)
    fun x => .pure (f := fun s => { s with w := { s.w with runs := addSample x s.w.i s.w.runs } }) fun _ _ => rfl)
    (atEnd := fun s => { s with phase := .period }) fun _ _ => rfl
  intro s h
  have hphase : (s.withHostOf h).phase = s.phase := rfl
  unfold uartMove
  rw [hphase]
  cases s.phase with
  | start => exact hostBlindMove_startMove _ (hostBlind_uartEnter analog) s h
  | period => exact HostBlindMove.next (hostBlind_uartPeriod auto) s h
  | resample => exact HostBlindMove.next (hostBlind_uartResample dbits par stop2) s h
  | search => exact HostBlindMove.next hostBlind_uartSearch s h
  | walk => exact HostBlindMove.next (hostBlind_uartWalk dbits par stop2) s h
  | idle | scan | widen | bitEdges | words => exact hscan s h

/-- No micro-step reads or writes the host's side (60 R136). -/
theorem hostBlindMove_move (i : Instr) : HostBlindMove (move i) := by
  cases i with
  | edges filt slot => exact hostBlindMove_edges filt slot
  | onewire => exact hostBlindMove_onewire
  | spi3 rwpos => exact hostBlindMove_spi3 rwpos
  | spi4 cpol cpha => exact hostBlindMove_spi4 cpol cpha
  | i2c => exact hostBlindMove_i2c
  | sync cpha => exact hostBlindMove_sync cpha
  | i2s bpw delay order bedge => exact hostBlindMove_i2s bpw delay order bedge
  | uart dbits par stop2 auto analog => exact hostBlindMove_uart dbits par stop2 auto analog

/-- A micro-step leaves the host's side as it is: `s.withHostOf s` is `s`. -/
theorem move_keeps_host {i : Instr} {s t : State} (hm : move i s = .next t) : t = t.withHostOf s := by
  have hblind : move i s = mapNext (·.withHostOf s) (move i s) := hostBlindMove_move i s s
  rw [hm] at hblind
  exact Host.Outcome.next.inj hblind

theorem move_keeps_cmd {i : Instr} {s t : State} (hm : move i s = .next t) : t.cmd = s.cmd := by
  rw [move_keeps_host hm]
  rfl

/-- The script changes nothing about a micro-step but is kept (log entry 2). -/
theorem move_withScript (i : Instr) (s : State) (es : List Event) :
    move i { s with script := es } = mapNext (fun t => { t with script := es }) (move i s) := by
  have hblind : move i { s with script := es } = mapNext (·.withHostOf { s with script := es }) (move i s) :=
    hostBlindMove_move i s { s with script := es }
  cases hm : move i s with
  | next t =>
    rw [hblind, hm, move_keeps_host hm]
    rfl
  | fault e => rw [hblind, hm]; rfl
  | refused r => rw [hblind, hm]; rfl

/-! ## A run is its micro-steps -/

/-- `exec` is the run of the operation's micro-steps, at most the bound of them (log entry 3). -/
theorem exec_eq_runMoves (i : Instr) (s : State) : exec i s = runMoves (move i) s.stepBound s := by
  cases i <;> rfl

/-- A step at a tick event of a busy block is one micro-step of the operation CMD holds. -/
theorem step_tick {i : Instr} {s : State} (es : List Event) (hb : s.status.busy = true) (hd : decode s.cmd = .ok i) :
    step { s with script := .tick :: es } = mapNext (fun t => { t with script := es }) (move i s) := by
  have hstep : step { s with script := .tick :: es } = move i { s with script := es } := by
    simp [step, stepOnce, blockTick, hb, hd]
  rw [hstep, move_withScript]

theorem core_run_succ {s t : State} (n : Nat) (h : step s = .next t) :
    Host.Core.run core (n + 1) s = Host.Core.run core n t := by
  have hstep : core.step s = .next t := h
  simp only [Host.Core.run, hstep]

/-- A step that stops the machine is the whole of a run of one step. -/
theorem core_run_one_of_stop {s : State} (h : ∀ t, step s ≠ .next t) : Host.Core.run core 1 s = step s := by
  have hstep : core.step s = step s := rfl
  cases hs : step s with
  | next t => exact absurd hs (h t)
  | fault e | refused r => simp only [Host.Core.run, hstep, hs]; rfl

theorem runMoves_succ_of_stop {m : State → Host.Outcome State Fault Refusal} {s : State} (fuel : Nat)
    (hb : s.status.busy = true) (h : ∀ t, m s ≠ .next t) : runMoves m (fuel + 1) s = m s := by
  cases hs : m s with
  | next t => exact absurd hs (h t)
  | fault e | refused r => simp [runMoves, hb, hs]

/-- A run of at most `fuel` micro-steps is a run of ticks, one per micro-step: none once the operation has finished,
and a last one where a micro-step stops the machine. -/
theorem run_ticks_eq_runMoves (i : Instr) : ∀ (fuel : Nat) (s : State), decode s.cmd = .ok i →
    ∃ n ≤ fuel, Host.Core.run core n { s with script := List.replicate n .tick } =
      runMoves (move i) fuel { s with script := [] }
  | 0, s, _ => ⟨0, Nat.le_refl 0, rfl⟩
  | fuel + 1, s, hd => by
    cases hb : s.status.busy with
    | false => exact ⟨0, Nat.zero_le _, (runMoves_of_idle (s := { s with script := [] }) _ _ hb).symm⟩
    | true =>
      have hmove := move_withScript i s []
      by_cases hnext : ∃ t, move i s = .next t
      · obtain ⟨t, hm⟩ := hnext
        obtain ⟨n, hn, hrun⟩ := run_ticks_eq_runMoves i fuel t (move_keeps_cmd hm ▸ hd)
        have hstep := step_tick (List.replicate n .tick) hb hd
        rw [hm] at hmove hstep
        refine ⟨n + 1, Nat.succ_le_succ hn, ?_⟩
        rw [runMoves_succ (s := { s with script := [] }) hb hmove, ← hrun, List.replicate_succ]
        exact core_run_succ n hstep
      · have hstop : ∀ t, move i { s with script := [] } ≠ .next t := by
          intro t ht
          rw [hmove] at ht
          cases hm : move i s with
          | next u => exact hnext ⟨u, hm⟩
          | fault e | refused r => rw [hm] at ht; cases ht
        have hstep : step { s with script := [.tick] } = move i { s with script := [] } :=
          (step_tick [] hb hd).trans hmove.symm
        refine ⟨1, Nat.succ_le_succ (Nat.zero_le _), ?_⟩
        rw [runMoves_succ_of_stop (s := { s with script := [] }) fuel hb hstop, ← hstep]
        exact core_run_one_of_stop (hstep ▸ hstop)

/-- Settles O6: the run of ticks with the bound as its fuel. -/
theorem runIsItsMicroSteps : Obligations.RunIsItsMicroSteps := by
  intro i s hd _
  rw [exec_eq_runMoves]
  exact run_ticks_eq_runMoves i s.stepBound s hd

end Sys2Proof.Machine
end

section
/-! What one micro-step of an operation can answer, said once for all operations (R23, R35, R136 to R139). -/

namespace Sys2Proof.Machine

/-! ## Steps that emit -/

/-- An emit from any working registers, after which `f` changes them (20_memory.md R47, 60 R139). -/
theorem emit_work (s : State) (v : Work) (a : Annotation) (f : Work → Work) :
    ({ s with w := v }).emit a (fun t => { t with w := f t.w }) = s.emitThen a (f v) := by
  by_cases h : s.Room
  · rw [emit_room (s := { s with w := v }) a _ h, emitThen_room a _ h]; rfl
  · rw [emit_full (s := { s with w := v }) a _ h, emitThen_full a _ h]; rfl

theorem owEmit_eq (s : State) (l : Label) (c : Colour) (p : Payload) (q : OwState) :
    s.owEmit l c p q =
      s.emitThen { label := l, colour := c, start := s.w.entry, stop := s.w.i, payload := p }
        { s.w with ow := q, entry := s.w.i } :=
  emit_work s s.w _ fun w => { w with ow := q, entry := w.i }

/-! ## The step at one index of a scan -/

/-- What the step at an index leaves alone of the working registers: the index, and the ranges of the bit counters
(10_state.md R17, R35). -/
structure Work.Follows (v w : Work) : Prop where
  i : w.i = v.i
  cnt : v.cnt ≤ 7 → w.cnt ≤ 7
  left : v.left ≤ 8 → w.left ≤ 8

/-- A change of working registers other than `i`, `cnt` and `left`. -/
theorem Work.Follows.of_eq {v w : Work} (hi : w.i = v.i) (hcnt : w.cnt = v.cnt) (hleft : w.left = v.left) :
    v.Follows w :=
  ⟨hi, fun h => hcnt ▸ h, fun h => hleft ▸ h⟩

/-- One more bit waits, and it does not complete the byte. -/
theorem Work.Follows.of_bit {v w : Work} (hi : w.i = v.i) (hcnt : w.cnt = v.cnt + 1) (h8 : ¬ w.cnt = 8)
    (hleft : w.left = v.left) : v.Follows w :=
  ⟨hi, fun _ => by omega, fun h => hleft ▸ h⟩

/-- Everything the step at an index can do: change working registers, emit one record, or (EDGES) one index word. -/
inductive Stepped (s : State) : State → Prop
  | quiet {w : Work} (h : s.w.Follows w) : Stepped s { s with w := w }
  | emits (a : Annotation) {w : Work} (h : s.w.Follows w) : Stepped s (s.emitThen a w)
  | index : Stepped s (s.emitIndex s.w.i id)

/-- An emit whose continuation only changes working registers. -/
theorem Stepped.emit {s : State} {v : Work} (a : Annotation) (f : Work → Work) (h : s.w.Follows (f v)) :
    Stepped s (({ s with w := v }).emit a fun t => { t with w := f t.w }) :=
  emit_work s v a f ▸ .emits a h

theorem Stepped.refl (s : State) : Stepped s s := .quiet (.of_eq rfl rfl rfl)

theorem edgesStep_stepped (filt : Filter) (l : Bool × Bool) (s : State) : Stepped s (edgesStep filt l s) := by
  unfold edgesStep
  split
  · exact .index
  · exact .refl s

/-! ### 1-Wire -/

theorem owEnter_stepped (s : State) (q : OwState) : Stepped s (s.owEnter q) := .quiet (.of_eq rfl rfl rfl)

theorem owEmit_stepped (s : State) (l : Label) (c : Colour) (p : Payload) (q : OwState) :
    Stepped s (s.owEmit l c p q) :=
  owEmit_eq s l c p q ▸ .emits _ (.of_eq rfl rfl rfl)

theorem protocolError_stepped (s : State) (l : Label) : Stepped s (s.protocolError l) :=
  owEmit_stepped s l .error .none .idle

theorem owResetEnd_stepped (s : State) : Stepped s (owResetEnd s) := by
  unfold owResetEnd
  split
  · exact owEmit_stepped ..
  · exact protocolError_stepped ..

theorem owPresenceStart_stepped (s : State) : Stepped s (owPresenceStart s) := by
  unfold owPresenceStart
  split
  · exact owEnter_stepped ..
  · exact protocolError_stepped ..

theorem owPresenceEnd_stepped (s : State) : Stepped s (owPresenceEnd s) := by
  unfold owPresenceEnd
  split
  · exact owEmit_stepped ..
  · exact protocolError_stepped ..

theorem owSlotEnd_stepped (s : State) : Stepped s (owSlotEnd s) := by
  unfold owSlotEnd
  split
  · exact owEmit_stepped ..
  · split <;> exact owEmit_stepped ..

theorem owWatchdog_stepped (s : State) : Stepped s (owWatchdog s) := by
  unfold owWatchdog
  split
  · exact protocolError_stepped ..
  · exact .refl s

theorem owStep_stepped (l : Bool × Bool) (s : State) : Stepped s (owStep l s) := by
  unfold owStep
  cases s.w.ow with
  | idle | active | one | masterWritingZero | masterReadingZero =>
    dsimp only; split
    · exact owEnter_stepped ..
    · exact .refl s
  | resetMasterPulse => dsimp only; split; exacts [owResetEnd_stepped s, .refl s]
  | resetSlaveWait => dsimp only; split; exacts [owPresenceStart_stepped s, .refl s]
  | resetSlavePulse => dsimp only; split; exacts [owPresenceEnd_stepped s, .refl s]
  | activeFallen => dsimp only; split; exacts [owSlotEnd_stepped s, owWatchdog_stepped s]

/-! ### SPI3 and SPI4 -/

theorem spiOpen_stepped (s : State) : Stepped s (spiOpen s) :=
  Stepped.emit (v := s.w) _ (fun w => { w with
    bus := .active, first := true, cnt := 0, acc := 0, mo := 0, mi := 0, rw := false, last := w.i })
    ⟨rfl, fun _ => Nat.zero_le _, id⟩

theorem spiClose_stepped (s : State) : Stepped s (spiClose s) := by
  unfold spiClose
  cases s.w.bus with
  | active => exact Stepped.emit (v := s.w) _ (fun w => { w with bus := .idle }) (.of_eq rfl rfl rfl)
  | idle => exact .refl s

theorem spiStep_stepped (ncs : Bool × Bool) (sampling : Bool) {bit : State → State} {s : State}
    (hbit : Stepped s (bit s)) : Stepped s (spiStep ncs sampling bit s) := by
  unfold spiStep
  split
  · exact spiOpen_stepped s
  split
  · exact spiClose_stepped s
  split
  · exact hbit
  · exact .refl s

/-- A byte of SPI3 ends its bit count (42_spi.md R93), whatever the registers `v` with the last bit shifted in. -/
theorem spi3Byte_stepped (rwpos : BitVec 3) {s : State} {v : Work} (hi : v.i = s.w.i) (hleft : v.left = s.w.left) :
    Stepped s (spi3Byte rwpos { s with w := v }) := by
  unfold spi3Byte
  split
  · exact Stepped.emit _ (fun w => { w with rw := w.acc.getLsbD rwpos.toNat, first := false, cnt := 0, acc := 0 })
      ⟨hi, fun _ => Nat.zero_le _, fun hl => hleft ▸ hl⟩
  · exact Stepped.emit _ (fun w => { w with cnt := 0, acc := 0 })
      ⟨hi, fun _ => Nat.zero_le _, fun hl => hleft ▸ hl⟩

theorem spi3Bit_stepped (rwpos : BitVec 3) (b : Bool) (s : State) : Stepped s (spi3Bit rwpos b s) := by
  unfold spi3Bit
  dsimp only
  split
  · exact spi3Byte_stepped rwpos rfl rfl
  · exact .quiet (.of_bit rfl rfl ‹_› rfl)

/-- A byte of SPI4 ends its bit count (42_spi.md R97), whatever the registers `v` with the last bits shifted in. -/
theorem spi4Byte_stepped {s : State} {v : Work} (hi : v.i = s.w.i) (hleft : v.left = s.w.left) :
    Stepped s (spi4Byte { s with w := v }) := by
  have h (a : Annotation) := Stepped.emit (s := s) (v := v) a
    (fun w => { w with first := false, cnt := 0, mo := 0, mi := 0 })
    ⟨hi, fun _ => Nat.zero_le _, fun hl => hleft ▸ hl⟩
  unfold spi4Byte
  split
  · exact h _
  split
  · exact h _
  · exact h _

theorem spi4Bit_stepped (mosi miso : Bool) (s : State) : Stepped s (spi4Bit mosi miso s) := by
  unfold spi4Bit
  dsimp only
  split
  · exact spi4Byte_stepped rfl rfl
  · exact .quiet (.of_bit rfl rfl ‹_› rfl)

/-! ### I2C -/

theorem i2cStart_stepped (s : State) : Stepped s (i2cStart s) :=
  Stepped.emit (v := s.w) _ (fun w => { w with bus := .active, acc := 0, left := 8, first := true, last := w.i })
    ⟨rfl, id, fun _ => Nat.le_refl _⟩

/-- Stop is SPI's end of a transaction, by definition (43_i2c.md R103, 42_spi.md R90). -/
theorem i2cStop_stepped (s : State) : Stepped s (i2cStop s) := spiClose_stepped s

theorem i2cBit_stepped (b : Bool) (s : State) : Stepped s (i2cBit b s) := by
  unfold i2cBit
  dsimp only
  split
  · exact .quiet ⟨rfl, id, fun (h : s.w.left ≤ 8) => show s.w.left - 1 ≤ 8 by omega⟩
  · exact Stepped.emit _ (fun w => { w with left := 8, acc := 0, first := false, last := w.i })
      ⟨rfl, id, fun _ => Nat.le_refl _⟩

theorem i2cStep_stepped (scl sda : Bool × Bool) (s : State) : Stepped s (i2cStep scl sda s) := by
  unfold i2cStep
  split
  · exact i2cStart_stepped s
  split
  · exact i2cStop_stepped s
  split
  · exact i2cBit_stepped ..
  · exact .refl s

/-! ### SYNC and I2S -/

theorem syncStep_stepped (sampling b : Bool) (s : State) : Stepped s (syncStep sampling b s) := by
  unfold syncStep
  split
  · dsimp only
    split
    · exact Stepped.emit _ (fun w => { w with cnt := 0, acc := 0 }) ⟨rfl, fun _ => Nat.zero_le _, id⟩
    · exact .quiet (.of_bit rfl rfl ‹_› rfl)
  · exact .refl s

theorem i2sFrameEdge_stepped (l : Bool × Bool) (s : State) : Stepped s (i2sFrameEdge l s) := by
  unfold i2sFrameEdge
  split
  · exact .quiet (.of_eq rfl rfl rfl)
  · exact .refl s

theorem i2sBitEdge_stepped (bedge : ClockEdge) (l : Bool × Bool) (s : State) : Stepped s (i2sBitEdge bedge l s) := by
  unfold i2sBitEdge
  split
  · exact .quiet (.of_eq rfl rfl rfl)
  · exact .refl s

end Sys2Proof.Machine
end

section
/-! One micro-step of any operation: going on, or ending the operation. -/

namespace Sys2Proof.Machine

/-! ## Going on and ending -/

/-- `s` with the outputs, the control position and the working registers of `u`: all that a running operation
writes. -/
def State.withRun (s u : State) : State :=
  { s with
    out := u.out
    outCount := u.outCount
    bpNum := u.bpNum
    bpDen := u.bpDen
    uartOffset := u.uartOffset
    uartBslen := u.uartBslen
    phase := u.phase
    w := u.w }

/-- BP, UART_OFFSET and UART_BSLEN hold their reset values (10_state.md R25). -/
def State.DiagReset (s : State) : Prop := s.bpNum = 0 ∧ s.bpDen = 1 ∧ s.uartOffset = 0 ∧ s.uartBslen = 0

/-- Operation `i` has gone on from `s` to `t`. -/
structure Ran (i : Instr) (s t : State) : Prop where
  frame : t = s.withRun t
  outWf : s.out.wf = true → t.out.wf = true
  counters : s.CountersOk → t.CountersOk
  diag : clocked i = true → s.DiagReset → t.DiagReset
  phase : s.phase ≠ .idle → t.phase ≠ .idle

/-- What a micro-step of operation `i` makes of `s`: the operation goes on, or goes on and then finishes. -/
inductive Moved (i : Instr) (s : State) : State → Prop
  | going {t : State} (h : Ran i s t) : Moved i s t
  | ended {u : State} (r : Result) (h : Ran i s u) : Moved i s (u.finish r)

section Ran
variable {i : Instr} {s t : State}

theorem Ran.refl (i : Instr) (s : State) : Ran i s s := ⟨rfl, id, id, fun _ => id, id⟩

theorem Ran.status (h : Ran i s t) : t.status = s.status := by rw [h.frame]; rfl

theorem Ran.tainted (h : Ran i s t) : t.tainted = s.tainted := by rw [h.frame]; rfl

theorem Ran.cfg (h : Ran i s t) : t.cfg = s.cfg := by rw [h.frame]; rfl

theorem Ran.op (h : Ran i s t) : t.op = s.op := by rw [h.frame]; rfl

theorem Ran.samplesWritten (h : Ran i s t) (j : Instr) : samplesWritten j t = samplesWritten j s := by
  rw [h.frame]; rfl

theorem Ran.trans {u : State} (h : Ran i s t) (h' : Ran i t u) : Ran i s u :=
  ⟨by rw [h'.frame, h.frame]; rfl, h'.outWf ∘ h.outWf, h'.counters ∘ h.counters,
    fun hi => h'.diag hi ∘ h.diag hi, h'.phase ∘ h.phase⟩

/-- The bit counters and OUT's bytes are as before. -/
theorem Ran.of_eq (frame : t = s.withRun t) (hout : t.out = s.out) (hcnt : t.w.cnt = s.w.cnt)
    (hleft : t.w.left = s.w.left) (hdiag : clocked i = true → s.DiagReset → t.DiagReset)
    (hphase : s.phase ≠ .idle → t.phase ≠ .idle) : Ran i s t :=
  ⟨frame, fun h => hout ▸ h, fun ⟨hc, hl⟩ => ⟨hcnt ▸ hc, hleft ▸ hl⟩, hdiag, hphase⟩

theorem Ran.follows {w : Work} (i : Instr) (h : s.w.Follows w) : Ran i s { s with w := w } :=
  ⟨rfl, id, fun ⟨hcnt, hleft⟩ => ⟨h.cnt hcnt, h.left hleft⟩, fun _ => id, id⟩

theorem Ran.pushRecord (i : Instr) (s : State) (a : Annotation) : Ran i s (s.pushRecord a) :=
  ⟨rfl, wf_pushRecord a, id, fun _ => id, id⟩

theorem Ran.advance (i : Instr) (s : State) : Ran i s s.advance := by
  cases hb : s.status.busy with
  | true => rw [State.advance_of_busy hb]; exact .of_eq rfl rfl rfl rfl (fun _ => id) id
  | false => rw [State.advance_of_not_busy hb]; exact .refl i s

theorem Moved.advance (h : Moved i s t) : Moved i s t.advance := by
  cases h with
  | going h => exact .going (h.trans (.advance i _))
  | ended r h => rw [State.advance_of_not_busy (State.finish_busy _ r)]; exact .ended r h

/-- Emitting several annotations, the last of them perhaps not finding room (20_memory.md R47, 60 R139). -/
theorem Ran.emitAll {k : State → State} (hk : ∀ u, Ran i s u → Moved i s (k u)) :
    ∀ (as : List Annotation) (u : State), Ran i s u → Moved i s (State.emitAll as u k)
  | [], u, h => hk u h
  | a :: as, u, h => by
    by_cases hr : u.Room
    · rw [emitAll_room _ _ _ hr]
      exact Ran.emitAll hk as _ (h.trans (.pushRecord i u a))
    · rw [emitAll_full _ _ _ hr]
      exact .ended _ h

theorem Stepped.moved (i : Instr) (h : Stepped s t) : Moved i s t := by
  cases h with
  | quiet hw => exact .going (.follows i hw)
  | emits a hw =>
    by_cases hr : s.Room
    · rw [emitThen_room _ _ hr]
      exact .going ((Ran.pushRecord i s a).trans (.follows i ⟨hw.i, hw.cnt, hw.left⟩))
    · rw [emitThen_full _ _ hr]
      exact .ended _ (.refl i s)
  | index =>
    by_cases hr : s.outCount.toNat < 4 * s.cfg.outCap.toNat
    · rw [emitIndex_room _ _ hr]
      exact .going ⟨rfl, storeWf_writeWord _ _ _, id, fun _ => id, id⟩
    · rw [emitIndex_full _ _ hr]
      exact .ended _ (.refl i s)

end Ran

/-! ## The first micro-step, and the scans -/

/-- What operation `i` does at its first micro-step besides what every operation does (46_uart.md R113, R115). -/
def enterOf : Instr → State → State
  | .uart _ _ _ _ analog => uartEnter analog
  | .edges _ _ | .onewire | .spi3 _ | .spi4 _ _ | .i2c | .sync _ | .i2s _ _ _ _ => id

theorem move_of_start {s : State} (i : Instr) (h : s.phase = .start) : move i s = startMove i (enterOf i) s := by
  cases i <;> simp only [move, edgesMove, onewireMove, spi3Move, spi4Move, i2cMove, syncMove, i2sMove, uartMove, h,
    enterOf]

/-- The positions at which operation `i` takes a micro-step of its scan over its samples; of I2S the extraction of FE.
A foreign position counts as one (log entry 15). -/
def scanning : Instr → Phase → Bool
  | .edges _ _, ph | .onewire, ph | .sync _, ph => ph != .start
  | .spi3 _, ph | .spi4 _ _, ph | .i2c, ph => ph != .start && ph != .widen
  | .i2s _ _ _ _, ph => ph == .scan
  | .uart _ _ _ _ _, ph => ph == .idle || ph == .scan || ph == .widen || ph == .bitEdges || ph == .words

/-- The step of operation `i` at one index of its scan. -/
def scanStep : Instr → State → Except Fault State
  | .edges filt slot, s => do
    let l ← s.levels slot s.w.i
    return edgesStep filt l s
  | .onewire, s => do
    let l ← s.levels 0 s.w.i
    return owStep l s
  | .spi3 rwpos, s => do
    let ncs ← s.levels 0 s.w.i
    let clk ← s.levels 1 s.w.i
    let d ← s.smp 2 s.w.i
    return spiStep ncs (rise clk) (spi3Bit rwpos d) s
  | .spi4 _ cpha, s => do
    let ncs ← s.levels 0 s.w.i
    let clk ← s.levels 1 s.w.i
    let mosi ← s.smp 2 s.w.i
    let miso ← s.smp 3 s.w.i
    return spiStep ncs (edgeHit cpha clk) (spi4Bit mosi miso) s
  | .i2c, s => do
    let scl ← s.levels 0 s.w.i
    let sda ← s.levels 1 s.w.i
    return i2cStep scl sda s
  | .sync cpha, s => do
    let clk ← s.levels 0 s.w.i
    let d ← s.smp 1 s.w.i
    return syncStep (edgeHit cpha clk) d s
  | .i2s _ _ _ _, s => do
    let l ← s.levels 0 s.w.i
    return i2sFrameEdge l s
  | .uart _ _ _ _ analog, s => do
    let x ← uartLevel analog s s.w.i
    return { s with w := { s.w with runs := addSample x s.w.i s.w.runs } }

/-- What operation `i` does after the last index of its scan. -/
def scanEnd : Instr → State → State
  | .edges _ _ | .onewire | .sync _ => (·.finish .ok)
  | .spi3 _ | .spi4 _ _ | .i2c => (·.beginWiden)
  | .i2s _ _ _ _ => fun s => { s with phase := .bitEdges, w := { s.w with i := 1 } }
  | .uart _ _ _ _ _ => fun s => { s with phase := .period }

/-- By definition, position by position. -/
theorem move_of_scanning {s : State} {i : Instr} (h : scanning i s.phase = true) :
    move i s = scanMove (scanStep i) (scanEnd i) s := by
  cases i <;> cases hph : s.phase <;> simp [scanning, hph] at h <;>
    (simp only [move, edgesMove, onewireMove, spi3Move, spi4Move, i2cMove, syncMove, i2sMove, uartMove, hph]; rfl)

/-! ### Every step of a scan is one of `Stepped` -/

/-- What a step with a read before it answers is what it answers on the value read. -/
theorem ok_of_bind {α β : Type} {x : Except Fault α} {f : α → Except Fault β} {b : β} (h : x >>= f = .ok b) :
    ∃ a, x = .ok a ∧ f a = .ok b := by
  cases x with
  | error e => cases h
  | ok a => exact ⟨a, rfl, h⟩

theorem scanStep_stepped {i : Instr} {s u : State} (h : scanStep i s = .ok u) : Stepped s u := by
  cases i with
  | edges filt slot =>
    obtain ⟨l, -, h⟩ := ok_of_bind h
    cases h; exact edgesStep_stepped ..
  | onewire =>
    obtain ⟨l, -, h⟩ := ok_of_bind h
    cases h; exact owStep_stepped ..
  | spi3 rwpos =>
    obtain ⟨ncs, -, h⟩ := ok_of_bind h
    obtain ⟨clk, -, h⟩ := ok_of_bind h
    obtain ⟨d, -, h⟩ := ok_of_bind h
    cases h; exact spiStep_stepped _ _ (spi3Bit_stepped ..)
  | spi4 cpol cpha =>
    obtain ⟨ncs, -, h⟩ := ok_of_bind h
    obtain ⟨clk, -, h⟩ := ok_of_bind h
    obtain ⟨mosi, -, h⟩ := ok_of_bind h
    obtain ⟨miso, -, h⟩ := ok_of_bind h
    cases h; exact spiStep_stepped _ _ (spi4Bit_stepped ..)
  | i2c =>
    obtain ⟨scl, -, h⟩ := ok_of_bind h
    obtain ⟨sda, -, h⟩ := ok_of_bind h
    cases h; exact i2cStep_stepped ..
  | sync cpha =>
    obtain ⟨clk, -, h⟩ := ok_of_bind h
    obtain ⟨d, -, h⟩ := ok_of_bind h
    cases h; exact syncStep_stepped ..
  | i2s bpw delay order bedge =>
    obtain ⟨l, -, h⟩ := ok_of_bind h
    cases h; exact i2sFrameEdge_stepped ..
  | uart dbits par stop2 auto analog =>
    obtain ⟨x, -, h⟩ := ok_of_bind h
    cases h; exact .quiet (.of_eq rfl rfl rfl)

theorem scanEnd_moved (i : Instr) (s : State) : Moved i s (scanEnd i s) := by
  cases i with
  | edges | onewire | sync => exact .ended .ok (.refl _ s)
  | spi3 | spi4 | i2c | i2s | uart => exact .going (.of_eq rfl rfl rfl rfl (fun _ => id) nofun)

theorem scanMove_moved {i : Instr} {stepAt : State → Except Fault State} {atEnd : State → State} {s t : State}
    (hstep : ∀ u, stepAt s = .ok u → Stepped s u) (hend : Moved i s (atEnd s)) (h : scanMove stepAt atEnd s = .next t) :
    Moved i s t := by
  obtain ⟨-, u, hu, rfl⟩ | ⟨-, rfl⟩ := scanMove_next h
  · exact ((hstep u hu).moved i).advance
  · exact hend

theorem clearOutputs_ran (i : Instr) (s : State) : Ran i s s.clearOutputs :=
  .of_eq rfl rfl rfl rfl (fun _ _ => ⟨rfl, rfl, rfl, rfl⟩) id

theorem enterOf_ran (i : Instr) (s : State) : Ran i s (enterOf i s) := by
  cases i with
  | uart => exact .of_eq rfl rfl rfl rfl (fun _ => id) id
  | edges | onewire | spi3 | spi4 | i2c | sync | i2s => exact .refl _ s

theorem startMove_moved {i : Instr} {s t : State} (h : startMove i (enterOf i) s = .next t) : Moved i s t := by
  obtain ⟨-, -, rfl⟩ | ⟨-, rfl⟩ := startMove_next h
  · have hinit : Ran i s { s.clearOutputs with w := Work.initial, phase := .scan } :=
      ⟨rfl, id, fun _ => ⟨Nat.zero_le _, Nat.le_refl _⟩, fun _ _ => ⟨rfl, rfl, rfl, rfl⟩, nofun⟩
    exact .going (hinit.trans (enterOf_ran i _))
  · exact .ended .configError (clearOutputs_ran i s)

/-! ## The other positions -/

theorem wf_widenRecord {m : Mem} (n j : Nat) (h : m.wf = true) : (widenRecord m n j).wf = true := by
  unfold widenRecord
  split
  · split
    · exact storeWf_writeWord _ _ _ h
    · exact h
  · exact h

theorem widenMove_moved (i : Instr) (s : State) : Moved i s (widenMove s) := by
  unfold widenMove
  split
  · exact .going ⟨rfl, wf_widenRecord _ _, id, fun _ => id, id⟩
  · exact .ended .ok (.refl i s)

/-! ### I2S -/

section I2s
variable {bpw : BitVec 6} {delay : BitVec 4} {order : BitOrder} {bedge : ClockEdge} {s : State}

/-- The extraction of BE, one index at a time (45_i2s.md R110). -/
theorem i2sMove_bitEdges (h : s.phase = .bitEdges) :
    move (.i2s bpw delay order bedge) s =
      scanMove (fun s => do
        let l ← s.levels 1 s.w.i
        return i2sBitEdge bedge l s) (fun s => { s with phase := .words, w := { s.w with k := 0 } }) s := by
  simp only [move, i2sMove, h]

/-- A frame half (45_i2s.md R110). -/
theorem i2sMove_word {f g : Nat} (h : s.phase = .words) (hf : s.w.fe[s.w.k]? = some f)
    (hg : s.w.fe[s.w.k + 1]? = some g) {t : State} (ht : i2sWord bpw delay order f g s = .ok t) :
    move (.i2s bpw delay order bedge) s = .next t := by
  simp only [move, i2sMove, h, hf, hg, ht]

/-- After the last pair of frame-clock edges (45_i2s.md R110). -/
theorem i2sMove_words_end (h : s.phase = .words) (hk : s.w.fe.length ≤ s.w.k + 1) :
    move (.i2s bpw delay order bedge) s = .next (s.finish .ok) := by
  have hg : s.w.fe[s.w.k + 1]? = none := List.getElem?_eq_none hk
  simp only [move, i2sMove, h, hg]
  cases s.w.fe[s.w.k]? <;> rfl

/-- What a micro-step of the word loop, foreign positions included (log entry 15), can answer. -/
theorem i2sMove_word_cases {t : State} (hstart : s.phase ≠ .start) (hscan : s.phase ≠ .scan)
    (hbits : s.phase ≠ .bitEdges) (h : move (.i2s bpw delay order bedge) s = .next t) :
    (∃ f g, i2sWord bpw delay order f g s = .ok t) ∨ t = s.finish .ok := by
  cases hph : s.phase with
  | start | scan | bitEdges => contradiction
  | idle | widen | words | period | resample | search | walk =>
    simp only [move, i2sMove, hph] at h
    split at h
    · split at h
      · cases h; exact .inl ⟨_, _, ‹_›⟩
      · cases h
    · cases h; exact .inr rfl

theorem i2sWord_stepped {f g : Nat} {t : State} (h : i2sWord bpw delay order f g s = .ok t) : Stepped s t := by
  unfold i2sWord at h
  dsimp only at h
  split at h
  · cases h; exact .quiet (.of_eq rfl rfl rfl)
  · obtain ⟨bs, -, h⟩ := ok_of_bind h
    obtain ⟨lr, -, h⟩ := ok_of_bind h
    cases h
    exact Stepped.emit _ (fun w => { w with k := w.k + 1 }) (.of_eq rfl rfl rfl)

end I2s

/-! ### UART -/

section Uart
variable {dbits : BitVec 4} {par : Parity} {stop2 auto analog : Bool} {s t : State}

theorem uartMove_period (h : s.phase = .period) :
    move (.uart dbits par stop2 auto analog) s = .next (uartPeriod auto s) := by
  simp only [move, uartMove, h]

theorem uartMove_resample (h : s.phase = .resample) :
    move (.uart dbits par stop2 auto analog) s = .next (uartResample dbits par stop2 s) := by
  simp only [move, uartMove, h]

theorem uartMove_search (h : s.phase = .search) :
    move (.uart dbits par stop2 auto analog) s = .next (uartSearch s) := by
  simp only [move, uartMove, h]

theorem uartMove_walk (h : s.phase = .walk) :
    move (.uart dbits par stop2 auto analog) s = .next (uartWalk dbits par stop2 s) := by
  simp only [move, uartMove, h]

theorem uartStream_moved (h : Ran (.uart dbits par stop2 auto analog) s t) :
    Moved (.uart dbits par stop2 auto analog) s (uartStream t) := by
  unfold uartStream
  split
  · exact .ended _ h
  · exact .going (h.trans (.of_eq rfl rfl rfl rfl nofun nofun))

theorem uartPeriod_moved (s : State) :
    Moved (.uart dbits par stop2 auto analog) s (uartPeriod auto s) := by
  unfold uartPeriod
  split
  · dsimp only
    split
    · exact .ended (u := { s with w := { s.w with hist := histogram s.w.runs } }) _ (.of_eq rfl rfl rfl rfl nofun id)
    · exact uartStream_moved (.of_eq rfl rfl rfl rfl nofun id)
  · exact uartStream_moved (.of_eq rfl rfl rfl rfl nofun id)

theorem uartResample_moved (s : State) :
    Moved (.uart dbits par stop2 auto analog) s (uartResample dbits par stop2 s) := by
  unfold uartResample
  split
  · exact .going (.of_eq rfl rfl rfl rfl nofun id)
  · dsimp only
    split
    · exact .ended (u := { s with
        uartBslen := BitVec.ofNat 32 s.w.bits.length
        w := { s.w with frame := frameLength dbits par stop2 } }) _ (.of_eq rfl rfl rfl rfl nofun id)
    · exact .going (.of_eq rfl rfl rfl rfl nofun nofun)

theorem uartSearch_moved (s : State) : Moved (.uart dbits par stop2 auto analog) s (uartSearch s) := by
  unfold uartSearch
  split
  · dsimp only
    split <;> exact .going (.of_eq rfl rfl rfl rfl nofun id)
  · exact .going (.of_eq rfl rfl rfl rfl nofun nofun)

theorem uartWalk_moved (s : State) :
    Moved (.uart dbits par stop2 auto analog) s (uartWalk dbits par stop2 s) := by
  unfold uartWalk
  split
  · split
    · refine Ran.emitAll (fun u hu => .going ?_) _ s (.refl _ s)
      exact hu.trans (.of_eq rfl rfl rfl rfl nofun id)
    · exact .going (.of_eq rfl rfl rfl rfl nofun id)
  · exact .ended .ok (.refl _ s)

end Uart

/-! ## One micro-step of any operation -/

/-- What a micro-step can answer: the operation goes on, or it finishes (60 R138). -/
theorem move_moved {i : Instr} {s t : State} (h : move i s = .next t) : Moved i s t := by
  by_cases hstart : s.phase = .start
  · exact startMove_moved (move_of_start i hstart ▸ h)
  by_cases hscan : scanning i s.phase = true
  · exact scanMove_moved (fun _ => scanStep_stepped) (scanEnd_moved i s) (move_of_scanning hscan ▸ h)
  cases i with
  | edges | onewire | sync => simp [scanning, hstart] at hscan
  | spi3 rwpos =>
    have hwiden : s.phase = .widen := by simpa [scanning, hstart] using hscan
    simp only [move, spi3Move, hwiden] at h
    cases h; exact widenMove_moved ..
  | spi4 cpol cpha =>
    have hwiden : s.phase = .widen := by simpa [scanning, hstart] using hscan
    simp only [move, spi4Move, hwiden] at h
    cases h; exact widenMove_moved ..
  | i2c =>
    have hwiden : s.phase = .widen := by simpa [scanning, hstart] using hscan
    simp only [move, i2cMove, hwiden] at h
    cases h; exact widenMove_moved ..
  | i2s bpw delay order bedge =>
    have hscan' : s.phase ≠ .scan := by simpa [scanning] using hscan
    by_cases hbits : s.phase = .bitEdges
    · rw [i2sMove_bitEdges hbits] at h
      refine scanMove_moved (fun u hu => ?_) (.going ?_) h
      · obtain ⟨l, -, hu⟩ := ok_of_bind hu
        cases hu; exact i2sBitEdge_stepped ..
      · exact .of_eq rfl rfl rfl rfl (fun _ => id) nofun
    · obtain ⟨f, g, ht⟩ | rfl := i2sMove_word_cases hstart hscan' hbits h
      · exact (i2sWord_stepped ht).moved _
      · exact .ended .ok (.refl _ s)
  | uart dbits par stop2 auto analog =>
    cases hph : s.phase with
    | start => exact absurd hph hstart
    | period => rw [uartMove_period hph] at h; cases h; exact uartPeriod_moved s
    | resample => rw [uartMove_resample hph] at h; cases h; exact uartResample_moved s
    | search => rw [uartMove_search hph] at h; cases h; exact uartSearch_moved s
    | walk => rw [uartMove_walk hph] at h; cases h; exact uartWalk_moved s
    | idle | scan | widen | bitEdges | words => rw [hph] at hscan; exact absurd rfl hscan

end Sys2Proof.Machine
end

section
/-! What every step keeps (O29), and what only UART writes (O24). -/

namespace Sys2Proof.Machine

/-! ## The invariant over a micro-step -/

section Moved
variable {i : Instr} {s t : State}

theorem Ran.inv (h : Ran i s t) (hs : s.Inv) (hb : s.status.busy = true) : t.Inv := by
  obtain ⟨⟨h0, h1, h2, h3, hout, hach⟩, ⟨hbd, hphase, hres, hdone⟩, ⟨hlatch, -⟩, hcount⟩ := hs
  have hidle : s.phase ≠ .idle := hphase.1 hb
  have hout' := h.outWf hout
  have hphase' := h.phase hidle
  have hcount' := h.counters hcount
  rw [h.frame] at hout' hphase' hcount' ⊢
  exact ⟨⟨h0, h1, h2, h3, hout', hach⟩, ⟨hbd, ⟨fun _ => hphase', fun _ => hb⟩, hres, hdone⟩,
    ⟨hlatch, fun hnb => absurd (hb.symm.trans hnb) nofun⟩, hcount'⟩

theorem finish_inv (r : Result) (hs : s.Inv) : (s.finish r).Inv := by
  obtain ⟨⟨h0, h1, h2, h3, hout, hach⟩, -, -, -⟩ := hs
  exact ⟨⟨by simpa using h0, by simpa using h1, by simpa using h2, by simpa using h3, wf_finish r hout,
    by simpa using hach⟩, ⟨by simp, by simp, finish_result_le s r, by simp⟩, ⟨by simp, by simp⟩,
    by simp [Work.initial], by simp [Work.initial]⟩

theorem Moved.inv (h : Moved i s t) (hs : s.Inv) (hb : s.status.busy = true) : t.Inv := by
  cases h with
  | going h => exact h.inv hs hb
  | ended r h => exact finish_inv r (h.inv hs hb)

end Moved

/-! ## The invariant over the host's actions -/

theorem move_inv {i : Instr} {s t : State} (hs : s.Inv) (hb : s.status.busy = true) (h : move i s = .next t) : t.Inv :=
  (move_moved h).inv hs hb

theorem exec_inv {i : Instr} {s t : State} (hs : s.Inv) (h : exec i s = .next t) : t.Inv :=
  runMoves_keeps (fun _ _ hb hs hm => move_inv hs hb hm) _ s t hs (exec_eq_runMoves i s ▸ h)

section Host
variable {s t : State}

/-- A word that is no instruction is refused (60 R137). -/
theorem clearOutputs_refuse_inv (hs : s.Inv) : s.clearOutputs.refuse.Inv :=
  finish_inv (s := s.clearOutputs) .configError hs

theorem blockRun_inv (hs : s.Inv) (h : blockRun s = .next t) : t.Inv := by
  unfold blockRun at h
  split at h
  · split at h
    · exact exec_inv hs h
    · cases h; exact clearOutputs_refuse_inv hs
  · cases h; exact hs

theorem blockTick_inv (hs : s.Inv) (h : blockTick s = .next t) : t.Inv := by
  unfold blockTick at h
  split at h
  · split at h
    · exact move_inv hs ‹_› h
    · cases h; exact clearOutputs_refuse_inv hs
  · cases h; exact hs

theorem startCommand_inv (c : Word) (hs : s.Inv) : (s.startCommand c).Inv := by
  obtain ⟨hmem, -, -, hcount⟩ := hs
  exact ⟨hmem, ⟨by simp [Status.running], by simp [Status.running], by simp [Status.running],
    by simp [Status.running]⟩, ⟨fun _ => rfl, by simp [Status.running]⟩, hcount⟩

theorem regWrite_inv (off : BitVec 8) (v : Word) (hs : s.Inv) : (s.regWrite off v).Inv := by
  cases hb : s.status.busy with
  | true => rwa [regWrite_of_busy off v hb]
  | false =>
    have hinv := hs
    obtain ⟨hmem, hstatus, ⟨-, hidle⟩, hcount⟩ := hs
    have hnotBusy {P : Prop} (h : s.status.busy = true) : P := absurd (hb.symm.trans h) nofun
    unfold State.regWrite
    rw [if_neg (by simp [hb])]
    split
    · exact startCommand_inv v hinv
    · exact ⟨hmem, hstatus, ⟨hnotBusy, hidle⟩, hcount⟩
    · exact ⟨hmem, hstatus, ⟨hnotBusy, hidle⟩, hcount⟩
    · exact ⟨hmem, hstatus, ⟨hnotBusy, hidle⟩, hcount⟩
    · exact ⟨hmem, hstatus, ⟨hnotBusy, hidle⟩, hcount⟩
    · exact hinv

theorem regRead_inv (off : BitVec 8) (hs : s.Inv) : (s.regRead off).Inv := by
  unfold State.regRead
  split <;> exact hs

theorem setSlotByte_inv (k : BitVec 2) (off : Nat) (b : Byte) (hs : s.Inv) : (s.setSlotByte k off b).Inv := by
  obtain ⟨⟨h0, h1, h2, h3, hout, hach⟩, hrest⟩ := hs
  unfold State.setSlotByte
  split
  · exact ⟨⟨storeWf_storeWrite _ _ _ h0, h1, h2, h3, hout, hach⟩, hrest⟩
  · exact ⟨⟨h0, storeWf_storeWrite _ _ _ h1, h2, h3, hout, hach⟩, hrest⟩
  · exact ⟨⟨h0, h1, storeWf_storeWrite _ _ _ h2, h3, hout, hach⟩, hrest⟩
  · exact ⟨⟨h0, h1, h2, storeWf_storeWrite _ _ _ h3, hout, hach⟩, hrest⟩

/-- Only a running operation is spoiled (20_memory.md R55). -/
theorem taintIfBusy_inv (hs : s.Inv) : s.taintIfBusy.Inv := by
  obtain ⟨hmem, hstatus, ⟨hlatch, hidle⟩, hcount⟩ := hs
  refine ⟨hmem, hstatus, ⟨hlatch, fun hb => ?_⟩, hcount⟩
  have hb' : s.status.busy = false := hb
  obtain ⟨hw, ht⟩ := hidle hb'
  exact ⟨hw, by simp [State.taintIfBusy, ht, hb']⟩

theorem outRead_inv {addr : Nat} {acc : Access} (hs : s.Inv) (h : s.outRead addr acc = .next t) : t.Inv := by
  unfold State.outRead at h
  split at h
  · split at h
    · cases h; exact hs
    · split at h
      · cases h; exact hs
      · cases h
  · cases h

theorem hwReset_inv (s : State) : s.hwReset.Inv := by
  have hreset : State.reset.Inv := by decide
  exact hreset

theorem regAct_inv {addr : Nat} {acc : Access} {act : BitVec 8 → State} (hact : ∀ off, (act off).Inv)
    (h : s.regAct addr acc act = .next t) : t.Inv := by
  unfold State.regAct at h
  split at h
  · cases h
  · split at h
    · cases h; exact hact _
    · cases h

theorem memAct_inv {base addr : Nat} {act : Nat → Host.Outcome State Fault Refusal}
    (hact : ∀ off, act off = .next t → t.Inv) (h : memAct base addr act = .next t) : t.Inv := by
  unfold memAct at h
  split at h
  · exact hact _ h
  · cases h

theorem hostAct_inv {a : HostAction} (hs : s.Inv) (h : hostAct a s = .next t) : t.Inv := by
  cases a with
  | regWrite addr acc v => exact regAct_inv (fun off => regWrite_inv off v hs) h
  | regRead addr acc => exact regAct_inv (fun off => regRead_inv off hs) h
  | chWrite k addr b =>
    have h' : memAct (s.chBase k) addr (fun off => s.chWrite k off b) = .next t := h
    refine memAct_inv (fun off hw => ?_) h'
    obtain ⟨-, rfl⟩ := chWrite_next hw
    exact setSlotByte_inv k off b (taintIfBusy_inv hs)
  | analogWrite addr b =>
    have h' : memAct s.cfg.ach0Base addr (fun off => s.analogWrite off b) = .next t := h
    refine memAct_inv (fun off hw => ?_) h'
    obtain ⟨-, rfl⟩ := analogWrite_next hw
    obtain ⟨⟨h0, h1, h2, h3, hout, hach⟩, hrest⟩ := taintIfBusy_inv hs
    exact ⟨⟨h0, h1, h2, h3, hout, storeWf_storeWrite _ _ _ hach⟩, hrest⟩
  | outRead addr acc => exact memAct_inv (fun off => outRead_inv hs) h
  | hwReset => cases h; exact hwReset_inv s

end Host

/-- Settles O29: by the kind of the next event; a micro-step, and so a whole operation, by `move_moved`. -/
theorem stepKeepsInvariant : Obligations.StepKeepsInvariant := by
  intro s t hs h
  have hscript {es : List Event} : { s with script := es }.Inv := hs
  simp only [step, stepOnce] at h
  split at h
  · exact blockRun_inv hs h
  · exact hostAct_inv hscript h
  · exact blockTick_inv hscript h
  · unfold waitStep at h
    split at h
    · exact blockRun_inv hscript h
    · cases h; exact hs

/-! ## The diagnostic registers -/

/-- The first micro-step clears the outputs itself, so it is the same with them cleared before (60 R136). -/
theorem move_clearOutputs (i : Instr) {s : State} (h : s.phase = .start) : move i s.clearOutputs = move i s := by
  rw [move_of_start i h, move_of_start i (s := s.clearOutputs) h]
  rfl

theorem Moved.diagReset {i : Instr} {s t : State} (h : Moved i s t) (hi : clocked i = true) (ht : s.tainted = false)
    (hs : s.DiagReset) : t.DiagReset ∧ t.tainted = false := by
  cases h with
  | going h => exact ⟨h.diag hi hs, h.tainted.trans ht⟩
  | ended r h =>
    rw [State.finish_of_not_tainted (h.tainted.trans ht)]
    exact ⟨h.diag hi hs, h.tainted.trans ht⟩

/-- Settles O24: the first micro-step clears the diagnostic registers, and no other one of a clocked operation writes
them. -/
theorem diagnosticsOnlyFromUart : Obligations.DiagnosticsOnlyFromUart := by
  intro i s t hi ⟨hb, hstart⟩ htaint h
  have hclear : runMoves (move i) s.stepBound s.clearOutputs = .next t := by
    obtain ⟨fuel, hfuel⟩ : ∃ fuel, s.stepBound = fuel + 1 := ⟨_, rfl⟩
    rw [exec_eq_runMoves, hfuel] at h
    have hb' : s.clearOutputs.status.busy = true := hb
    simpa only [hfuel, runMoves, hb, hb', if_true, move_clearOutputs i hstart] using h
  have hreset : s.clearOutputs.DiagReset := ⟨rfl, rfl, rfl, rfl⟩
  exact (runMoves_keeps (P := fun u => u.DiagReset ∧ u.tainted = false)
    (fun u v _ ⟨hu, hut⟩ hm => (move_moved hm).diagReset hi hut hu) _ _ t ⟨hreset, htaint⟩ hclear).1

end Sys2Proof.Machine
end

section
/-! STATUS as read (O11), the first micro-step of every operation and the scan of UART (O49). -/

namespace Sys2Proof.Machine

/-- The fields of STATUS at their bits (10_state.md R23). -/
theorem status_word_toNat (st : Status) :
    st.word.toNat = st.busy.toNat + 2 * st.done.toNat + 4 * st.result.toNat := by
  obtain ⟨busy, done, result⟩ := st
  revert busy done result
  decide

/-- Settles O11: the register at 0x14 is `Status.word`. -/
theorem statusWordFields : Obligations.StatusWordFields := fun s => status_word_toNat s.status

/-! ## The first micro-step -/

/-- The state a legal operation on written samples begins its scan in. -/
def firstState (i : Instr) (s : State) : State :=
  enterOf i { s.clearOutputs with w := Work.initial, phase := .scan }

theorem move_of_ready {i : Instr} {s : State} (h : s.Ready i) : move i s = .next (firstState i s) := by
  obtain ⟨⟨-, hstart⟩, hlegal, hwritten⟩ := h
  rw [move_of_start i hstart, startMove_of_ready hlegal hwritten]
  rfl

/-! ## The scan of UART -/

/-- An index at which a scan only changes working registers, and `pc <- i + 1` (10_state.md R17). -/
theorem scanMove_quiet {stepAt : State → Except Fault State} {atEnd : State → State} {s : State} {w : Work}
    (hi : s.w.i < s.n) (hb : s.status.busy = true) (hu : stepAt s = .ok { s with w := w }) :
    scanMove stepAt atEnd s = .next { s with w := { w with i := w.i + 1 } } := by
  rw [scanMove_of_lt hi hu, State.advance_of_busy (s := { s with w := w }) hb]

section UartScan
variable {dbits : BitVec 4} {par : Parity} {stop2 auto analog x : Bool} {s : State}

/-- The input of UART at an index, boolean or thresholded (46_uart.md R113, R114). -/
theorem uartLevel_eq {i : Nat} (hi : i < s.n) (hdigital : analog = false → s.smp 0 i = .ok x)
    (hanalog : analog = true → ∃ v, s.ach i = some v ∧ (x = true ↔ ∃ t, s.w.theta = some t ∧ t < v)) :
    uartLevel analog s i = .ok x := by
  cases analog with
  | false => exact hdigital rfl
  | true =>
    obtain ⟨v, hv, hx⟩ := hanalog rfl
    cases htheta : s.w.theta with
    | none =>
      have hlow : x = false := by simpa [htheta] using hx
      simp [uartLevel, hi, hv, htheta, hlow]
    | some t =>
      have hlevel : x = decide (t < v) := by
        rw [Bool.eq_iff_iff, hx, htheta]
        simp
      simp [uartLevel, hi, hv, htheta, hlevel]

theorem scanning_uart_scan (h : s.phase = .scan) : scanning (.uart dbits par stop2 auto analog) s.phase = true := by
  rw [h]; rfl

/-- One index of the scan: the sample joins the runs (46_uart.md R115). -/
theorem uartMove_scan (h : s.phase = .scan) (hb : s.status.busy = true) (hi : s.w.i < s.n)
    (hx : uartLevel analog s s.w.i = .ok x) :
    move (.uart dbits par stop2 auto analog) s =
      .next { s with w := { s.w with runs := addSample x s.w.i s.w.runs, i := s.w.i + 1 } } := by
  have hstep : scanStep (.uart dbits par stop2 auto analog) s =
      .ok { s with w := { s.w with runs := addSample x s.w.i s.w.runs } } := by
    simp only [scanStep, hx]; rfl
  rw [move_of_scanning (scanning_uart_scan h), scanMove_quiet hi hb hstep]

/-- After the last index the bit period comes next (46_uart.md R113). -/
theorem uartMove_scan_end (h : s.phase = .scan) (hi : s.n ≤ s.w.i) :
    move (.uart dbits par stop2 auto analog) s = .next { s with phase := .period } := by
  rw [move_of_scanning (scanning_uart_scan h), scanMove_of_ge hi]
  rfl

end UartScan

/-- Settles O49: `firstState` read out for each operation, and the scan of UART index by index. -/
theorem firstStepAndUartScan : Obligations.FirstStepAndUartScan := by
  refine ⟨fun i s h => ?_, fun d par st au an x s hscan => ⟨fun hi hd ha hb => ?_, uartMove_scan_end hscan⟩⟩
  · rw [move_of_ready h]
    cases i <;> rfl
  · exact uartMove_scan hscan hb hi (uartLevel_eq hi hd ha)

end Sys2Proof.Machine
end

section
/-! One frame half of I2S (O46). -/

namespace Sys2Proof.Machine

/-! ## Word values -/

theorem msbValue_append (bs : List Bool) (b : Bool) : msbValue (bs ++ [b]) = 2 * msbValue bs + b.toNat := by
  simp [msbValue]

/-- The first bit is the most significant (45_i2s.md R112). -/
theorem msbValue_range (b : Nat → Bool) (n : Nat) :
    msbValue ((List.range n).map b) = ((List.range n).map fun j => (b j).toNat * 2 ^ (n - 1 - j)).sum := by
  induction n with
  | zero => rfl
  | succ n ih =>
    have hdouble : ((List.range n).map fun j => (b j).toNat * 2 ^ (n - j)).sum =
        2 * ((List.range n).map fun j => (b j).toNat * 2 ^ (n - 1 - j)).sum := by
      rw [← List.sum_map_mul_left]
      refine congrArg List.sum (List.map_congr_left fun j hj => ?_)
      have hj' : n - j = n - 1 - j + 1 := by have := List.mem_range.1 hj; omega
      rw [hj', Nat.pow_succ]
      ring
    simp [List.range_succ, msbValue_append, ih, hdouble]

/-- The first bit is the least significant (45_i2s.md R112). -/
theorem lsbValue_range (b : Nat → Bool) (n : Nat) :
    lsbValue ((List.range n).map b) = ((List.range n).map fun j => (b j).toNat * 2 ^ j).sum := by
  induction n generalizing b with
  | zero => rfl
  | succ n ih =>
    have htail := ih fun j => b (j + 1)
    simp only [List.range_succ_eq_map, List.map_cons, List.map_map, lsbValue, List.sum_cons,
      Function.comp_def] at htail ⊢
    rw [htail, ← List.sum_map_mul_left]
    simp [Nat.pow_succ, Nat.mul_comm 2, Nat.mul_assoc]

/-- The samples at a list of indices, all of them written. -/
theorem samplesAt_eq {s : State} {k : BitVec 2} {b : Nat → Bool} {is : List Nat}
    (h : ∀ j (hj : j < is.length), s.smp k is[j] = .ok (b j)) :
    samplesAt s k is = .ok ((List.range is.length).map b) := by
  induction is generalizing b with
  | nil => rfl
  | cons i is ih =>
    have hhead : s.smp k i = .ok (b 0) := h 0 (Nat.succ_pos _)
    have htail := ih (b := fun j => b (j + 1)) fun j hj => h (j + 1) (Nat.succ_lt_succ hj)
    simp only [samplesAt, hhead, htail, List.length_cons, List.range_succ_eq_map, List.map_cons, List.map_map]
    rfl

/-! ## The window -/

section Window
variable {be : List Nat} {delay bpw f g : Nat}

/-- No word: too few sampling edges after f, or edge DELAY not before g (45_i2s.md R111). -/
theorem i2sWindow_eq_none (h : (be.filter (f < ·)).length < delay + bpw ∨
    ∃ e, (be.filter (f < ·))[delay]? = some e ∧ g ≤ e) : i2sWindow be delay bpw f g = none := by
  refine if_pos (h.imp_right ?_)
  rintro ⟨e, he, hge⟩
  simpa [List.getD_eq_getElem?_getD, he] using hge

/-- A word: the BPW sampling edges from edge DELAY on (45_i2s.md R111). -/
theorem i2sWindow_eq_some {e : Nat} (hlen : delay + bpw ≤ (be.filter (f < ·)).length)
    (he : (be.filter (f < ·))[delay]? = some e) (heg : e < g) :
    i2sWindow be delay bpw f g = some (((be.filter (f < ·)).drop delay).take bpw) := by
  refine if_neg ?_
  rw [List.getD_eq_getElem?_getD, he]
  simp only [Option.getD_some]
  omega

end Window

/-- The word of a frame half: its bits, its label and its span, then the next pair (45_i2s.md R112). -/
theorem i2sWord_eq {bpw : BitVec 6} {delay : BitVec 4} {order : BitOrder} {f g : Nat} {s : State} {win : List Nat}
    {bs : List Bool} {lr : Bool} (hwin : i2sWindow s.w.be delay.toNat bpw.toNat f g = some win)
    (hbs : samplesAt s 2 win = .ok bs) (hlr : s.smp 0 f = .ok lr) :
    i2sWord bpw delay order f g s = .ok
      (s.emitThen
        { label := if lr then .rFlag else .left, colour := .data, start := f, stop := g,
          payload := .int (i2sValue order bs) bpw.toNat }
        { s.w with wordAcc := i2sValue order bs, k := s.w.k + 1 }) := by
  have hemit := emit_work s { s.w with wordAcc := i2sValue order bs }
    { label := if lr then .rFlag else .left, colour := .data, start := f, stop := g,
      payload := .int (i2sValue order bs) bpw.toNat } fun w => { w with k := w.k + 1 }
  simp only [i2sWord, hwin, hbs, hlr]
  exact congrArg Except.ok hemit

theorem i2sWord_none {bpw : BitVec 6} {delay : BitVec 4} {order : BitOrder} {f g : Nat} {s : State}
    (hwin : i2sWindow s.w.be delay.toNat bpw.toNat f g = none) :
    i2sWord bpw delay order f g s = .ok { s with w := { s.w with k := s.w.k + 1 } } := by
  simp only [i2sWord, hwin]

/-- Settles O46: the window decides whether there is a word, and its samples give the word's value. -/
theorem i2sWordOfAHalf : Obligations.I2sWordOfAHalf := by
  intro bpw delay order bedge s hwords
  refine ⟨i2sMove_words_end hwords, fun f g hf hg => ⟨fun hno => ?_, fun e b lr _ hlen he heg hbits hlr => ?_⟩⟩
  · exact i2sMove_word hwords hf hg (i2sWord_none (i2sWindow_eq_none hno))
  · have hwin := i2sWindow_eq_some hlen he heg
    have hcount : (((s.w.be.filter (f < ·)).drop delay.toNat).take bpw.toNat).length = bpw.toNat := by
      rw [List.length_take, List.length_drop]
      omega
    have hbs : samplesAt s 2 (((s.w.be.filter (f < ·)).drop delay.toNat).take bpw.toNat) =
        .ok ((List.range bpw.toNat).map b) := by
      have hall := samplesAt_eq (s := s) (k := 2) (b := b)
        (is := ((s.w.be.filter (f < ·)).drop delay.toNat).take bpw.toNat) fun j hj => by
          have hj' : j < bpw.toNat := hcount ▸ hj
          have hbit := hbits j hj'
          rw [List.getD_eq_getElem _ _ (by omega)] at hbit
          simpa using hbit
      rwa [hcount] at hall
    rw [i2sMove_word hwords hf hg (i2sWord_eq hwin hbs hlr)]
    cases order <;> cases lr <;> simp [i2sValue, msbValue_range, lsbValue_range]

end Sys2Proof.Machine
end

section
/-! Every operation reaches its end: the clocked operations (for O17). -/

namespace Sys2Proof.Machine

/-! ## Running to the end -/

/-- The block is idle after an operation: DONE = 1, RESULT a code the block produces, working registers discarded
(60 R138, 93 I9). -/
structure State.Ended (s : State) : Prop where
  busy : s.status.busy = false
  done : s.status.done = true
  result : s.status.result.toNat ≤ 5
  phase : s.phase = .idle
  work : s.w = Work.initial

theorem finish_ended (s : State) (r : Result) : (s.finish r).Ended :=
  ⟨s.finish_busy r, s.finish_done r, finish_result_le s r, s.finish_phase r, s.finish_w r⟩

/-- A micro-step lowers BUSY only by finishing. -/
theorem Moved.ended_of_idle {i : Instr} {s t : State} (h : Moved i s t) (hs : s.status.busy = true)
    (ht : t.status.busy = false) : t.Ended := by
  cases h with
  | going h => rw [h.status, hs] at ht; cases ht
  | ended r h => exact finish_ended _ r

/-- No micro-step writes the operands or the parameters (60 R136). -/
theorem Moved.op_cfg {i : Instr} {s t : State} (h : Moved i s t) : t.op = s.op ∧ t.cfg = s.cfg := by
  cases h with
  | going h => exact ⟨h.op, h.cfg⟩
  | ended r h => simp [h.op, h.cfg]

theorem exec_op_cfg {i : Instr} {s t : State} (h : exec i s = .next t) : t.op = s.op ∧ t.cfg = s.cfg :=
  runMoves_keeps (P := fun u => u.op = s.op ∧ u.cfg = s.cfg)
    (fun _ _ _ ⟨hop, hcfg⟩ hm => ⟨(move_moved hm).op_cfg.1.trans hop, (move_moved hm).op_cfg.2.trans hcfg⟩)
    _ s t ⟨rfl, rfl⟩ (exec_eq_runMoves i s ▸ h)

@[simp] theorem firstState_status (i : Instr) (s : State) : (firstState i s).status = s.status := by cases i <;> rfl

/-- A ready operation reaches its end when, after its first micro-step, every micro-step keeps `R` and brings `left`
down until the operation has finished, with `Q`. -/
theorem exec_finishes {i : Instr} {s : State} (R Q : State → Prop) (left : State → Nat) (hs : s.Ready i)
    (hfirst : R (firstState i s)) (hfuel : left (firstState i s) + 1 < s.stepBound)
    (hstep : ∀ u, u.status.busy = true → R u → ∃ t, move i u = .next t ∧
      (t.status.busy = true → R t ∧ left t < left u) ∧ (t.status.busy = false → Q t)) :
    ∃ t, exec i s = .next t ∧ t.Ended ∧ Q t := by
  obtain ⟨fuel, hbound⟩ : ∃ fuel, s.stepBound = fuel + 1 := ⟨_, rfl⟩
  have hbusy : s.status.busy = true := hs.1.1
  rw [exec_eq_runMoves, hbound, runMoves_succ hbusy (move_of_ready hs)]
  obtain ⟨t, ht, hP, hidle⟩ := runMoves_finishes (move := move i)
    (P := fun u => (u.status.busy = true → R u) ∧ (u.status.busy = false → u.Ended ∧ Q u)) left
    (fun u hb hu => by
      obtain ⟨t, hm, hgo, hend⟩ := hstep u hb (hu.1 hb)
      exact ⟨t, hm, ⟨fun h => (hgo h).1, fun h => ⟨(move_moved hm).ended_of_idle hb h, hend h⟩⟩, fun h => (hgo h).2⟩)
    fuel (firstState i s)
    ⟨fun _ => hfirst, fun h => by rw [firstState_status, hbusy] at h; cases h⟩ (by omega)
  exact ⟨t, ht, hP.2 hidle⟩

/-! ## A step of a scan that goes on -/

theorem Stepped.going {s u : State} (h : Stepped s u) (hu : u.status.busy = true) :
    u.w.i = s.w.i ∧ u.outCount.toNat ≤ s.outCount.toNat + 1 ∧ u.phase = s.phase := by
  have hcount : (s.outCount + 1).toNat ≤ s.outCount.toNat + 1 := by
    rw [BitVec.toNat_add]; exact Nat.mod_le ..
  cases h with
  | quiet hw => exact ⟨hw.i, Nat.le_succ _, rfl⟩
  | emits a hw =>
    by_cases hr : s.Room
    · rw [emitThen_room _ _ hr]; exact ⟨hw.i, hcount, rfl⟩
    · rw [emitThen_full _ _ hr, State.finish_busy] at hu; cases hu
  | index =>
    by_cases hr : s.outCount.toNat < 4 * s.cfg.outCap.toNat
    · rw [emitIndex_room _ _ hr]; exact ⟨rfl, hcount, rfl⟩
    · rw [emitIndex_full _ _ hr, State.finish_busy] at hu; cases hu

/-- A step that goes on moves the index by one and adds at most one to OUT_COUNT (10_state.md R17, 20_memory.md
R47). -/
theorem Stepped.advance_going {s u : State} (h : Stepped s u) (hu : u.advance.status.busy = true) :
    u.advance.w.i = s.w.i + 1 ∧ u.advance.outCount.toNat ≤ s.outCount.toNat + 1 ∧ u.advance.phase = s.phase := by
  have hu' : u.status.busy = true := by simpa using hu
  obtain ⟨hi, hcount, hphase⟩ := h.going hu'
  rw [State.advance_of_busy hu']
  exact ⟨by rw [← hi], hcount, hphase⟩

theorem uartLevel_of_samplesWritten {dbits : BitVec 4} {par : Parity} {stop2 auto analog : Bool} {s : State} {j : Nat}
    (h : samplesWritten (.uart dbits par stop2 auto analog) s = true) (hj : j < s.n) :
    ∃ x, uartLevel analog s j = .ok x := by
  cases analog with
  | false => exact smp_of_samplesWritten (k := 0) h (by simp [opSlots]) hj
  | true =>
    simp only [samplesWritten, opReadsAnalog, Bool.not_true, Bool.false_or, Bool.and_eq_true, List.all_eq_true,
      List.mem_range] at h
    obtain ⟨v, hv⟩ := Option.isSome_iff_exists.1 (h.2 j hj)
    cases htheta : s.w.theta <;> simp [uartLevel, hj, hv, htheta]

/-- A step answers when the read before it does and it does on every value read. -/
theorem exists_ok_bind {α β : Type} {x : Except Fault α} {f : α → Except Fault β} (hx : ∃ a, x = .ok a)
    (hf : ∀ a, ∃ b, f a = .ok b) : ∃ b, x >>= f = .ok b := by
  obtain ⟨a, rfl⟩ := hx
  exact hf a

/-- On written samples no step of a scan faults (20_memory.md R41). -/
theorem scanStep_of_samplesWritten {i : Instr} {s : State} (h : samplesWritten i s = true) (hi : s.w.i < s.n) :
    ∃ u, scanStep i s = .ok u := by
  have hlevels (k : BitVec 2) (hk : k ∈ opSlots i) := levels_of_samplesWritten h hk hi
  have hsmp (k : BitVec 2) (hk : k ∈ opSlots i) := smp_of_samplesWritten h hk hi
  cases i with
  | edges filt slot => exact exists_ok_bind (hlevels slot (by simp [opSlots])) fun _ => ⟨_, rfl⟩
  | onewire => exact exists_ok_bind (hlevels 0 (by simp [opSlots])) fun _ => ⟨_, rfl⟩
  | spi3 rwpos =>
    exact exists_ok_bind (hlevels 0 (by simp [opSlots])) fun _ =>
      exists_ok_bind (hlevels 1 (by simp [opSlots])) fun _ =>
      exists_ok_bind (hsmp 2 (by simp [opSlots])) fun _ => ⟨_, rfl⟩
  | spi4 cpol cpha =>
    exact exists_ok_bind (hlevels 0 (by simp [opSlots])) fun _ =>
      exists_ok_bind (hlevels 1 (by simp [opSlots])) fun _ =>
      exists_ok_bind (hsmp 2 (by simp [opSlots])) fun _ =>
      exists_ok_bind (hsmp 3 (by simp [opSlots])) fun _ => ⟨_, rfl⟩
  | i2c =>
    exact exists_ok_bind (hlevels 0 (by simp [opSlots])) fun _ =>
      exists_ok_bind (hlevels 1 (by simp [opSlots])) fun _ => ⟨_, rfl⟩
  | sync cpha =>
    exact exists_ok_bind (hlevels 0 (by simp [opSlots])) fun _ =>
      exists_ok_bind (hsmp 1 (by simp [opSlots])) fun _ => ⟨_, rfl⟩
  | i2s bpw delay order bedge => exact exists_ok_bind (hlevels 0 (by simp [opSlots])) fun _ => ⟨_, rfl⟩
  | uart dbits par stop2 auto analog => exact exists_ok_bind (uartLevel_of_samplesWritten h hi) fun _ => ⟨_, rfl⟩

theorem Moved.samplesWritten {i : Instr} {s t : State} (h : Moved i s t) (j : Instr) :
    samplesWritten j t = samplesWritten j s := by
  cases h with
  | going h => exact h.samplesWritten j
  | ended r h =>
    rw [← h.samplesWritten j]
    simp [Machine.samplesWritten, State.chan, State.n, State.ach]

theorem Moved.n {i : Instr} {s t : State} (h : Moved i s t) : t.n = s.n := by
  simp only [State.n, h.op_cfg.1]

/-! ## One scan, and the post-pass -/

/-- The operations whose only loop over the samples is one scan that emits as it goes. -/
def oneScan : Instr → Bool
  | .edges _ _ | .onewire | .spi3 _ | .spi4 _ _ | .i2c | .sync _ => true
  | .i2s _ _ _ _ | .uart _ _ _ _ _ => false

/-- How many micro-steps at most are left: the post-pass visits one record for each index scanned, at most. -/
def scanLeft (s : State) : Nat :=
  match s.phase with
  | .scan => 2 * (s.n - s.w.i) + s.outCount.toNat + 2
  | _ => s.outCount.toNat - s.w.j + 1

theorem scanLeft_scan {s : State} (h : s.phase = .scan) : scanLeft s = 2 * (s.n - s.w.i) + s.outCount.toNat + 2 := by
  simp only [scanLeft, h]

theorem scanLeft_widen {s : State} (h : s.phase = .widen) : scanLeft s = s.outCount.toNat - s.w.j + 1 := by
  simp only [scanLeft, h]

/-- Where an operation of one scan may stand. -/
structure InScan (i : Instr) (s : State) : Prop where
  written : samplesWritten i s = true
  phase : s.phase = .scan ∨ widens i = true ∧ s.phase = .widen

theorem move_of_widen {i : Instr} {s : State} (hi : widens i = true) (h : s.phase = .widen) :
    move i s = .next (widenMove s) := by
  cases i with
  | spi3 | spi4 | i2c => simp only [move, spi3Move, spi4Move, i2cMove, h]
  | edges | onewire | sync | i2s | uart => cases hi

theorem scanEnd_of_oneScan {i : Instr} (hi : oneScan i = true) (s : State) :
    scanEnd i s = s.finish .ok ∨ widens i = true ∧ scanEnd i s = s.beginWiden := by
  cases i with
  | edges | onewire | sync => exact .inl rfl
  | spi3 | spi4 | i2c => exact .inr ⟨rfl, rfl⟩
  | i2s | uart => cases hi

theorem scanning_of_oneScan {i : Instr} (hi : oneScan i = true) : scanning i .scan = true := by
  cases i with
  | edges | onewire | spi3 | spi4 | i2c | sync => rfl
  | i2s | uart => cases hi

theorem firstState_of_oneScan {i : Instr} (hi : oneScan i = true) (s : State) :
    firstState i s = { s.clearOutputs with w := Work.initial, phase := .scan } := by
  cases i with
  | edges | onewire | spi3 | spi4 | i2c | sync => rfl
  | i2s | uart => cases hi

theorem widenMove_going {s : State} (h : (widenMove s).status.busy = true) :
    s.w.j < s.outCount.toNat ∧ (widenMove s).w.j = s.w.j + 1 ∧ (widenMove s).outCount = s.outCount ∧
      (widenMove s).phase = s.phase := by
  by_cases hj : s.w.j < s.outCount.toNat
  · simp [widenMove, hj]
  · simp [widenMove, hj] at h

/-- A micro-step of the scan: one index, or its end. -/
theorem scan_move {i : Instr} {s : State} (hi : oneScan i = true) (hwritten : samplesWritten i s = true)
    (hphase : s.phase = .scan) :
    ∃ t, move i s = .next t ∧ (t.status.busy = true → InScan i t ∧ scanLeft t < scanLeft s) := by
  have hmove : move i s = scanMove (scanStep i) (scanEnd i) s :=
    move_of_scanning (hphase ▸ scanning_of_oneScan hi)
  by_cases hlt : s.w.i < s.n
  · obtain ⟨u, hu⟩ := scanStep_of_samplesWritten hwritten hlt
    have hm := hmove.trans (scanMove_of_lt hlt hu)
    have hmoved := move_moved hm
    refine ⟨_, hm, fun hb => ?_⟩
    obtain ⟨hindex, hcount, hphase'⟩ := (scanStep_stepped hu).advance_going hb
    refine ⟨⟨hmoved.samplesWritten i ▸ hwritten, .inl (hphase'.trans hphase)⟩, ?_⟩
    rw [scanLeft_scan hphase, scanLeft_scan (hphase'.trans hphase), hindex, hmoved.n]
    omega
  · refine ⟨_, hmove.trans (scanMove_of_ge (Nat.le_of_not_lt hlt)), fun hb => ?_⟩
    obtain hend | ⟨hw, hend⟩ := scanEnd_of_oneScan hi s
    · rw [hend, State.finish_busy] at hb
      cases hb
    · rw [hend]
      refine ⟨⟨hwritten, .inr ⟨hw, rfl⟩⟩, ?_⟩
      rw [scanLeft_scan hphase, scanLeft_widen rfl, State.beginWiden_outCount, State.beginWiden_w]
      omega

/-- A micro-step of the post-pass: one record, or its end. -/
theorem widen_move {i : Instr} {s : State} (hwritten : samplesWritten i s = true) (hw : widens i = true)
    (hphase : s.phase = .widen) :
    ∃ t, move i s = .next t ∧ (t.status.busy = true → InScan i t ∧ scanLeft t < scanLeft s) := by
  have hm := move_of_widen hw hphase
  refine ⟨_, hm, fun hb => ?_⟩
  obtain ⟨hj, hj', hcount, hphase'⟩ := widenMove_going hb
  refine ⟨⟨(move_moved hm).samplesWritten i ▸ hwritten, .inr ⟨hw, hphase'.trans hphase⟩⟩, ?_⟩
  rw [scanLeft_widen hphase, scanLeft_widen (hphase'.trans hphase), hj', hcount]
  omega

theorem exec_oneScan_finishes {i : Instr} {s : State} (hi : oneScan i = true) (hs : s.Ready i) :
    ∃ t, exec i s = .next t ∧ t.Ended := by
  have hfirst := firstState_of_oneScan hi s
  have hfuel : scanLeft (firstState i s) + 1 < s.stepBound := by
    rw [hfirst, scanLeft_scan rfl]
    show 2 * (s.n - 1) + 0 + 2 + 1 < s.stepBound
    unfold State.stepBound
    omega
  obtain ⟨t, ht, hend, -⟩ := exec_finishes (InScan i) (fun _ => True) scanLeft hs (hfirst ▸ ⟨hs.2.2, .inl rfl⟩)
    hfuel
    fun u _ ⟨hwritten, hphase⟩ => by
      obtain ⟨t, hm, hgo⟩ := hphase.elim (scan_move hi hwritten) fun ⟨hw, hphase⟩ => widen_move hwritten hw hphase
      exact ⟨t, hm, hgo, fun _ => trivial⟩
  exact ⟨t, ht, hend⟩

end Sys2Proof.Machine
end

section
/-! I2S reaches its end (for O17). -/

namespace Sys2Proof.Machine

section I2s
variable {bpw : BitVec 6} {delay : BitVec 4} {order : BitOrder} {bedge : ClockEdge} {s : State}

/-! ## Reads on written samples -/

theorem samplesAt_of_smp {k : BitVec 2} {is : List Nat} (h : ∀ i ∈ is, ∃ b, s.smp k i = .ok b) :
    ∃ bs, samplesAt s k is = .ok bs := by
  induction is with
  | nil => exact ⟨[], rfl⟩
  | cons i is ih =>
    obtain ⟨b, hb⟩ := h i List.mem_cons_self
    obtain ⟨bs, hbs⟩ := ih fun j hj => h j (List.mem_cons_of_mem i hj)
    exact ⟨b :: bs, by simp only [samplesAt, hb, hbs]; rfl⟩

/-- The word window holds sampling edges only (45_i2s.md R111). -/
theorem mem_of_mem_i2sWindow {be win : List Nat} {d b f g e : Nat} (h : i2sWindow be d b f g = some win)
    (he : e ∈ win) : e ∈ be := by
  unfold i2sWindow at h
  dsimp only at h
  split at h
  · cases h
  · cases h
    exact List.mem_of_mem_filter (List.mem_of_mem_drop (List.mem_of_mem_take he))

/-! ## The three loops -/

/-- Where I2S may stand, its edge lists holding indices below N (45_i2s.md R110). -/
structure InI2s (bpw : BitVec 6) (delay : BitVec 4) (order : BitOrder) (bedge : ClockEdge) (s : State) : Prop where
  written : samplesWritten (.i2s bpw delay order bedge) s = true
  phase : s.phase = .scan ∨ s.phase = .bitEdges ∨ s.phase = .words
  fe : ∀ e ∈ s.w.fe, e < s.n
  be : ∀ e ∈ s.w.be, e < s.n

/-- How many micro-steps at most are left: FE gains at most one entry for each index scanned. -/
def i2sLeft (s : State) : Nat :=
  match s.phase with
  | .scan => 2 * (s.n - s.w.i) + s.n + s.w.fe.length + 3
  | .bitEdges => s.n - s.w.i + s.w.fe.length + 2
  | _ => s.w.fe.length - s.w.k + 1

theorem i2sLeft_scan (h : s.phase = .scan) : i2sLeft s = 2 * (s.n - s.w.i) + s.n + s.w.fe.length + 3 := by
  simp only [i2sLeft, h]

theorem i2sLeft_bitEdges (h : s.phase = .bitEdges) : i2sLeft s = s.n - s.w.i + s.w.fe.length + 2 := by
  simp only [i2sLeft, h]

theorem i2sLeft_words (h : s.phase = .words) : i2sLeft s = s.w.fe.length - s.w.k + 1 := by
  simp only [i2sLeft, h]

/-- An index of an extraction joins the list or not. -/
theorem edges_grow {l l' : List Nat} {i n : Nat} (h : l' = l ∨ l' = l ++ [i]) (hi : i < n) (hl : ∀ e ∈ l, e < n) :
    l'.length ≤ l.length + 1 ∧ ∀ e ∈ l', e < n := by
  obtain rfl | rfl := h
  · exact ⟨Nat.le_succ _, hl⟩
  · refine ⟨by simp, fun e he => ?_⟩
    obtain he | he := List.mem_append.1 he
    · exact hl e he
    · exact List.mem_singleton.1 he ▸ hi

theorem i2sFrameEdge_eq (l : Bool × Bool) (s : State) : ∃ fe, (fe = s.w.fe ∨ fe = s.w.fe ++ [s.w.i]) ∧
    i2sFrameEdge l s = { s with w := { s.w with fe := fe } } := by
  unfold i2sFrameEdge
  split
  · exact ⟨_, .inr rfl, rfl⟩
  · exact ⟨_, .inl rfl, rfl⟩

theorem i2sBitEdge_eq (bedge : ClockEdge) (l : Bool × Bool) (s : State) :
    ∃ be, (be = s.w.be ∨ be = s.w.be ++ [s.w.i]) ∧ i2sBitEdge bedge l s = { s with w := { s.w with be := be } } := by
  unfold i2sBitEdge
  split
  · exact ⟨_, .inr rfl, rfl⟩
  · exact ⟨_, .inl rfl, rfl⟩

/-- A micro-step of the extraction of FE: one index, or its end. -/
theorem i2s_scan_move (h : InI2s bpw delay order bedge s) (hphase : s.phase = .scan) (hb : s.status.busy = true) :
    ∃ t, move (.i2s bpw delay order bedge) s = .next t ∧ InI2s bpw delay order bedge t ∧ i2sLeft t < i2sLeft s := by
  have hmove : move (.i2s bpw delay order bedge) s = _ := move_of_scanning (by rw [hphase]; rfl)
  by_cases hlt : s.w.i < s.n
  · obtain ⟨l, hl⟩ := levels_of_samplesWritten (k := 0) h.written (by simp [opSlots]) hlt
    obtain ⟨fe, hfe, hedge⟩ := i2sFrameEdge_eq l s
    have hstep : scanStep (.i2s bpw delay order bedge) s = .ok { s with w := { s.w with fe := fe } } := by
      simp only [scanStep, hl, ← hedge]; rfl
    rw [hmove, scanMove_quiet hlt hb hstep]
    obtain ⟨hlen, hmem⟩ := edges_grow hfe hlt h.fe
    refine ⟨_, rfl, ⟨h.written, .inl hphase, hmem, h.be⟩, ?_⟩
    rw [i2sLeft_scan hphase]
    refine (i2sLeft_scan (by exact hphase)).trans_lt ?_
    show 2 * (s.n - (s.w.i + 1)) + s.n + fe.length + 3 < _
    omega
  · refine ⟨_, hmove.trans (scanMove_of_ge (Nat.le_of_not_lt hlt)), ⟨h.written, .inr (.inl rfl), h.fe, h.be⟩, ?_⟩
    rw [i2sLeft_scan hphase]
    refine (i2sLeft_bitEdges (by rfl)).trans_lt ?_
    show s.n - 1 + s.w.fe.length + 2 < _
    omega

/-- A micro-step of the extraction of BE: one index, or its end. -/
theorem i2s_bitEdges_move (h : InI2s bpw delay order bedge s) (hphase : s.phase = .bitEdges)
    (hb : s.status.busy = true) :
    ∃ t, move (.i2s bpw delay order bedge) s = .next t ∧ InI2s bpw delay order bedge t ∧ i2sLeft t < i2sLeft s := by
  have hmove : move (.i2s bpw delay order bedge) s = _ := i2sMove_bitEdges hphase
  by_cases hlt : s.w.i < s.n
  · obtain ⟨l, hl⟩ := levels_of_samplesWritten (k := 1) h.written (by simp [opSlots]) hlt
    obtain ⟨be, hbe, hedge⟩ := i2sBitEdge_eq bedge l s
    rw [hmove, scanMove_quiet (w := { s.w with be := be }) hlt hb (by simp only [hl, ← hedge]; rfl)]
    obtain ⟨-, hmem⟩ := edges_grow hbe hlt h.be
    refine ⟨_, rfl, ⟨h.written, .inr (.inl hphase), h.fe, hmem⟩, ?_⟩
    rw [i2sLeft_bitEdges hphase]
    refine (i2sLeft_bitEdges (by exact hphase)).trans_lt ?_
    show s.n - (s.w.i + 1) + s.w.fe.length + 2 < _
    omega
  · refine ⟨_, hmove.trans (scanMove_of_ge (Nat.le_of_not_lt hlt)), ⟨h.written, .inr (.inr rfl), h.fe, h.be⟩, ?_⟩
    rw [i2sLeft_bitEdges hphase]
    refine (i2sLeft_words (by rfl)).trans_lt ?_
    show s.w.fe.length - 0 + 1 < _
    omega

/-- A frame half never faults, and where the operation goes on the next pair comes with the same edges. -/
theorem i2sWord_of_inI2s (h : InI2s bpw delay order bedge s) {f : Nat} (g : Nat) (hf : f < s.n) :
    ∃ t, i2sWord bpw delay order f g s = .ok t ∧ (t.status.busy = true →
      ∃ a, t.w = { s.w with wordAcc := a, k := s.w.k + 1 } ∧ t.phase = s.phase) := by
  cases hwin : i2sWindow s.w.be delay.toNat bpw.toNat f g with
  | none => exact ⟨_, i2sWord_none hwin, fun _ => ⟨s.w.wordAcc, rfl, rfl⟩⟩
  | some win =>
    obtain ⟨bs, hbs⟩ := samplesAt_of_smp (s := s) (k := 2) (is := win) fun e he =>
      smp_of_samplesWritten h.written (by simp [opSlots]) (h.be e (mem_of_mem_i2sWindow hwin he))
    obtain ⟨lr, hlr⟩ := smp_of_samplesWritten (k := 0) h.written (by simp [opSlots]) hf
    refine ⟨_, i2sWord_eq hwin hbs hlr, fun hb => ⟨i2sValue order bs, ?_⟩⟩
    by_cases hr : s.Room
    · rw [emitThen_room _ _ hr]; exact ⟨rfl, rfl⟩
    · rw [emitThen_full _ _ hr, State.finish_busy] at hb; cases hb

/-- A micro-step of the word loop: one frame half, or its end. -/
theorem i2s_words_move (h : InI2s bpw delay order bedge s) (hphase : s.phase = .words) :
    ∃ t, move (.i2s bpw delay order bedge) s = .next t ∧
      (t.status.busy = true → InI2s bpw delay order bedge t ∧ i2sLeft t < i2sLeft s) := by
  by_cases hk : s.w.k + 1 < s.w.fe.length
  · have hk' : s.w.k < s.w.fe.length := Nat.lt_of_succ_lt hk
    obtain ⟨t, ht, hgo⟩ := i2sWord_of_inI2s h s.w.fe[s.w.k + 1] (h.fe _ (List.getElem_mem hk'))
    have hm : move (.i2s bpw delay order bedge) s = .next t :=
      i2sMove_word hphase (List.getElem?_eq_getElem hk') (List.getElem?_eq_getElem hk) ht
    refine ⟨t, hm, fun hb => ?_⟩
    obtain ⟨a, hw, hphase'⟩ := hgo hb
    have hmoved := move_moved hm
    refine ⟨⟨hmoved.samplesWritten _ ▸ h.written, .inr (.inr (hphase'.trans hphase)), ?_, ?_⟩, ?_⟩
    · rw [hw, hmoved.n]; exact h.fe
    · rw [hw, hmoved.n]; exact h.be
    · rw [i2sLeft_words hphase, i2sLeft_words (hphase'.trans hphase), hw]
      show s.w.fe.length - (s.w.k + 1) + 1 < _
      omega
  · refine ⟨_, i2sMove_words_end hphase (Nat.le_of_not_lt hk), fun hb => ?_⟩
    rw [State.finish_busy] at hb
    cases hb

theorem exec_i2s_finishes (hs : s.Ready (.i2s bpw delay order bedge)) :
    ∃ t, exec (.i2s bpw delay order bedge) s = .next t ∧ t.Ended := by
  have hfuel : i2sLeft (firstState (.i2s bpw delay order bedge) s) + 1 < s.stepBound := by
    rw [i2sLeft_scan rfl]
    show 2 * (s.n - 1) + s.n + 0 + 3 + 1 < s.stepBound
    unfold State.stepBound
    omega
  obtain ⟨t, ht, hend, -⟩ := exec_finishes (InI2s bpw delay order bedge) (fun _ => True) i2sLeft hs
    ⟨hs.2.2, .inl rfl, nofun, nofun⟩ hfuel fun u hb hu => by
      have hmove : ∃ t, move (.i2s bpw delay order bedge) u = .next t ∧
          (t.status.busy = true → InI2s bpw delay order bedge t ∧ i2sLeft t < i2sLeft u) := by
        obtain hphase | hphase | hphase := hu.phase
        · obtain ⟨t, hm, ht⟩ := i2s_scan_move hu hphase hb
          exact ⟨t, hm, fun _ => ht⟩
        · obtain ⟨t, hm, ht⟩ := i2s_bitEdges_move hu hphase hb
          exact ⟨t, hm, fun _ => ht⟩
        · exact i2s_words_move hu hphase
      obtain ⟨t, hm, hgo⟩ := hmove
      exact ⟨t, hm, hgo, fun _ => trivial⟩
  exact ⟨t, ht, hend⟩

end I2s

end Sys2Proof.Machine
end

section
/-! A whole UART operation (O58), and with it every operation reaches its end (O17). -/

namespace Sys2Proof.Machine

/-! ## Runs, bitstream and records -/

/-- The run scanner takes one more sample (46_uart.md R115). -/
theorem runsOf_take_succ {xs : List Bool} {i : Nat} (hi : i < xs.length) :
    runsOf (xs.take (i + 1)) = addSample (xs.getD i false) i (runsOf (xs.take i)) := by
  have hlen : (xs.take i).length = i := List.length_take_of_le hi.le
  rw [List.take_add_one, List.getElem?_eq_getElem hi, List.getD_eq_getElem _ _ hi, runsOf, List.zipIdx_append,
    List.foldl_append, hlen, Nat.zero_add]
  rfl

/-- The bitstream has an entry at every position below L and none from L on (46_uart.md R118). -/
theorem streamEntry_of_lt {tie : Tie} {pNum pDen : Nat} {runs : List Run} {b : Nat}
    (h : b < streamLength tie pNum pDen runs) : ∃ e, streamEntry tie pNum pDen runs b = some e := by
  rw [streamEntry_eq, List.getElem?_eq_getElem (by rwa [length_streamBits]),
    List.getElem?_eq_getElem (by rwa [length_streamIndex])]
  exact ⟨_, rfl⟩

theorem streamEntry_of_ge {tie : Tie} {pNum pDen : Nat} {runs : List Run} {b : Nat}
    (h : streamLength tie pNum pDen runs ≤ b) : streamEntry tie pNum pDen runs b = none := by
  rw [streamEntry_eq, List.getElem?_eq_none (by rwa [length_streamBits])]

/-- Emitting several annotations: the records that find room are written, and the operation goes on only if all do
(20_memory.md R47, 60 R139). -/
theorem emitAll_cases (k : State → State) : ∀ (as : List Annotation) (s : State),
    s.outCount.toNat ≤ s.cfg.outCap.toNat → ∃ (out : Mem) (count : Word), count.toNat ≤ s.cfg.outCap.toNat ∧
      (State.emitAll as s k = k { s with out := out, outCount := count } ∧
          count.toNat = s.outCount.toNat + as.length ∨
        State.emitAll as s k = ({ s with out := out, outCount := count }).finish .outOverflow ∧
          count = s.cfg.outCap ∧ s.cfg.outCap.toNat < s.outCount.toNat + as.length)
  | [], s, hcap => ⟨s.out, s.outCount, hcap, .inl ⟨rfl, rfl⟩⟩
  | a :: as, s, hcap => by
    rw [List.length_cons]
    by_cases hr : s.Room
    · have hcount := pushRecord_count a hr
      obtain ⟨out, count, hle, hout⟩ := emitAll_cases k as (s.pushRecord a) (by rw [hcount]; exact hr)
      rw [hcount] at hout
      rw [emitAll_room _ _ _ hr]
      refine ⟨out, count, hle, hout.imp (fun ⟨hk, hc⟩ => ⟨hk, by omega⟩) fun ⟨hf, hc, hlt⟩ => ⟨hf, hc, ?_⟩⟩
      have hlt' : s.cfg.outCap.toNat < s.outCount.toNat + 1 + as.length := hlt
      omega
    · have hfull : ¬ s.outCount.toNat < s.cfg.outCap.toNat := hr
      rw [emitAll_full _ _ _ hr]
      exact ⟨s.out, s.outCount, hcap, .inr ⟨rfl, BitVec.eq_of_toNat_eq (by omega), by omega⟩⟩

/-- A frame of at least one data bit has no more records than bits (46_uart.md R120, R126). -/
theorem length_frameAnnotations_le {dbits : BitVec 4} {par : Parity} {stop2 : Bool} (hd : 1 ≤ dbits.toNat) (s : State) :
    (frameAnnotations dbits par stop2 s).length ≤ frameLength dbits par stop2 := by
  have hstop : 1 ≤ stopBits stop2 := by cases stop2 <;> decide
  unfold frameAnnotations frameLength parityBits
  by_cases hpar : par = .none
  · simp [hpar]; omega
  · simp [hpar]; omega

/-! ## The bit period -/

/-- P as numerator and denominator, none when no run length repeats in auto mode (46_uart.md R116, R117). -/
def uartPeriodOf (auto : Bool) (op : Latched) (runs : List Run) : Option (Nat × Nat) :=
  if auto then (autobaud (histogram runs)).map fun k => (k, 1) else some (baudPeriod op)

theorem uartPeriodOf_eq_some {auto : Bool} {op : Latched} {runs : List Run} {p : Nat × Nat} :
    uartPeriodOf auto op runs = some p ↔
      auto = true ∧ (∃ k, autobaud (histogram runs) = some k ∧ p = (k, 1)) ∨ auto = false ∧ p = baudPeriod op := by
  cases auto <;> simp [uartPeriodOf, eq_comm]

theorem uartPeriod_of_none {auto : Bool} {s : State} (h : uartPeriodOf auto s.op s.w.runs = none) :
    uartPeriod auto s = s.finish .emptyNoPeriod := by
  cases auto with
  | false => cases h
  | true =>
    have hauto : autobaud (histogram s.w.runs) = none := by simpa [uartPeriodOf] using h
    simp [uartPeriod, hauto]

theorem uartPeriod_of_some {auto : Bool} {s : State} {p : Nat × Nat} (h : uartPeriodOf auto s.op s.w.runs = some p) :
    ∃ hist, uartPeriod auto s = uartStream (({ s with w := { s.w with hist := hist } }).setPeriod p) := by
  obtain ⟨rfl, k, hk, rfl⟩ | ⟨rfl, rfl⟩ := uartPeriodOf_eq_some.1 h
  · exact ⟨histogram s.w.runs, by simp [uartPeriod, hk]⟩
  · exact ⟨s.w.hist, rfl⟩

theorem uartStream_of_fits {s : State}
    (h : streamLength s.cfg.uartTie s.w.pNum s.w.pDen s.w.runs ≤ s.cfg.bitsCap.toNat) :
    uartStream s = { s with phase := .resample } := if_neg (Nat.not_lt.2 h)

theorem uartStream_of_exceeds {s : State}
    (h : s.cfg.bitsCap.toNat < streamLength s.cfg.uartTie s.w.pNum s.w.pDen s.w.runs) :
    uartStream s = s.finish .bitsOverflow := if_pos h

/-! ## Where a UART operation stands -/

/-- L of the samples `xs` at the bit period `p` (46_uart.md R118). -/
def State.bitCount (s : State) (xs : List Bool) (p : Nat × Nat) : Nat :=
  streamLength s.cfg.uartTie p.1 p.2 (runsOf xs)

/-- Nothing is written yet: no record, no bit, no diagnostic register. -/
structure State.Fresh (s : State) : Prop where
  outCount : s.outCount = 0
  bits : s.w.bits = []
  diag : s.DiagReset

/-- The bit period of the samples is `p`, and BP holds it (46_uart.md R116, R117, 10_state.md R25). -/
structure State.HasPeriod (s : State) (auto : Bool) (xs : List Bool) (p : Nat × Nat) : Prop where
  found : uartPeriodOf auto s.op (runsOf xs) = some p
  num : s.bpNum = BitVec.ofNat 32 p.1
  den : s.bpDen = BitVec.ofNat 64 p.2

/-- The bitstream fits BITS_CAP, and UART_BSLEN holds its length (46_uart.md R118, 60 R140). -/
structure State.Streamed (s : State) (auto : Bool) (xs : List Bool) (p : Nat × Nat) : Prop where
  period : s.HasPeriod auto xs p
  fits : s.bitCount xs p ≤ s.cfg.bitsCap.toNat
  bslen : s.uartBslen = BitVec.ofNat 32 (s.bitCount xs p)

section Uart

/-- In the scan: the runs of the samples so far (46_uart.md R115). -/
structure AtScan (analog : Bool) (xs : List Bool) (s : State) : Prop where
  phase : s.phase = .scan
  fresh : s.Fresh
  index : s.w.i ≤ s.n
  length : xs.length = s.n
  runs : s.w.runs = runsOf (xs.take s.w.i)
  level : ∀ j, j < s.n → uartLevel analog s j = .ok (xs.getD j false)

/-- Before the bit period: the runs of all samples. -/
structure AtPeriod (xs : List Bool) (s : State) : Prop where
  phase : s.phase = .period
  fresh : s.Fresh
  runs : s.w.runs = runsOf xs

/-- In the building of the bitstream (46_uart.md R118). -/
structure AtResample (auto : Bool) (xs : List Bool) (p : Nat × Nat) (s : State) : Prop where
  phase : s.phase = .resample
  period : s.HasPeriod auto xs p
  fits : s.bitCount xs p ≤ s.cfg.bitsCap.toNat
  runs : s.w.runs = runsOf xs
  num : s.w.pNum = p.1
  den : s.w.pDen = p.2
  bits : s.w.bits.length ≤ s.bitCount xs p
  outCount : s.outCount = 0
  offset : s.uartOffset = 0

/-- With the bitstream built and a frame of length `frame` in it (46_uart.md R120). -/
structure HasStream (frame : Nat) (auto : Bool) (xs : List Bool) (p : Nat × Nat) (s : State) : Prop where
  streamed : s.Streamed auto xs p
  width : s.w.frame = frame
  long : frame ≤ s.bitCount xs p
  bits : s.w.bits.length = s.bitCount xs p

/-- In the frame search (46_uart.md R121). -/
structure AtSearch (frame : Nat) (auto : Bool) (xs : List Bool) (p : Nat × Nat) (s : State) : Prop where
  phase : s.phase = .search
  stream : HasStream frame auto xs p s
  best : s.w.best < searchBound s
  outCount : s.outCount = 0

/-- In the frame walk: no more records than bits passed (46_uart.md R123, R126). -/
structure AtWalk (frame : Nat) (auto : Bool) (xs : List Bool) (p : Nat × Nat) (s : State) : Prop where
  phase : s.phase = .walk
  stream : HasStream frame auto xs p s
  offset : s.uartOffset.toNat < searchBound s
  records : s.outCount.toNat ≤ s.w.p
  pointer : s.w.p ≤ s.bitCount xs p
  room : s.outCount.toNat ≤ s.cfg.outCap.toNat

/-- What holds of a UART operation on samples `xs` between micro-steps, position by position. -/
inductive UartAt (frame : Nat) (auto analog : Bool) (xs : List Bool) (s : State) : Prop
  | scan (h : AtScan analog xs s)
  | period (h : AtPeriod xs s)
  | resample {p : Nat × Nat} (h : AtResample auto xs p s)
  | search {p : Nat × Nat} (h : AtSearch frame auto xs p s)
  | walk {p : Nat × Nat} (h : AtWalk frame auto xs p s)

/-- How a UART operation on samples `xs` ends (46_uart.md R113, 60 R133). -/
inductive UartOutcome (frame : Nat) (auto : Bool) (xs : List Bool) (t : State) : Prop
  | noPeriod (notFound : uartPeriodOf auto t.op (runsOf xs) = none) (result : t.status.result = 1) (diag : t.DiagReset)
      (outCount : t.outCount = 0)
  | bitsOverflow (p : Nat × Nat) (period : t.HasPeriod auto xs p) (exceeds : t.cfg.bitsCap.toNat < t.bitCount xs p)
      (result : t.status.result = 5) (bslen : t.uartBslen = 0) (offset : t.uartOffset = 0) (outCount : t.outCount = 0)
  | tooShort (p : Nat × Nat) (streamed : t.Streamed auto xs p) (short : t.bitCount xs p < frame)
      (result : t.status.result = 2) (offset : t.uartOffset = 0) (outCount : t.outCount = 0)
  | walked (p : Nat × Nat) (streamed : t.Streamed auto xs p) (long : frame ≤ t.bitCount xs p)
      (offset : t.uartOffset.toNat < max 1 (t.bitCount xs p / t.cfg.uartSearchDiv))
      (result : t.status.result = 0 ∨
        t.status.result = 4 ∧ t.outCount = t.cfg.outCap ∧ t.cfg.outCap.toNat < t.bitCount xs p)
      (room : t.outCount.toNat ≤ t.cfg.outCap.toNat) (records : t.outCount.toNat ≤ t.bitCount xs p)

/-- How many micro-steps at most are left, every loop over the bitstream bounded by BITS_CAP (60 R140). -/
def uartLeft (s : State) : Nat :=
  match s.phase with
  | .scan => s.n - s.w.i + 3 * s.cfg.bitsCap.toNat + 6
  | .period => 3 * s.cfg.bitsCap.toNat + 5
  | .resample => s.cfg.bitsCap.toNat - s.w.bits.length + 2 * s.cfg.bitsCap.toNat + 4
  | .search => searchBound s - s.w.o + s.w.bits.length + 2
  | _ => s.w.bits.length - s.w.p + 1

theorem uartLeft_scan {s : State} (h : s.phase = .scan) :
    uartLeft s = s.n - s.w.i + 3 * s.cfg.bitsCap.toNat + 6 := by simp only [uartLeft, h]

theorem uartLeft_period {s : State} (h : s.phase = .period) : uartLeft s = 3 * s.cfg.bitsCap.toNat + 5 := by
  simp only [uartLeft, h]

theorem uartLeft_resample {s : State} (h : s.phase = .resample) :
    uartLeft s = s.cfg.bitsCap.toNat - s.w.bits.length + 2 * s.cfg.bitsCap.toNat + 4 := by simp only [uartLeft, h]

theorem uartLeft_search {s : State} (h : s.phase = .search) :
    uartLeft s = searchBound s - s.w.o + s.w.bits.length + 2 := by simp only [uartLeft, h]

theorem uartLeft_walk {s : State} (h : s.phase = .walk) : uartLeft s = s.w.bits.length - s.w.p + 1 := by
  simp only [uartLeft, h]

variable {dbits : BitVec 4} {par : Parity} {stop2 auto analog : Bool} {xs : List Bool} {p : Nat × Nat} {s : State}

/-- A micro-step of UART either goes on, nearer the end, or finishes with one of the outcomes. -/
def UartGoes (frame : Nat) (auto analog : Bool) (xs : List Bool) (s t : State) : Prop :=
  UartAt frame auto analog xs t ∧ uartLeft t < uartLeft s ∨
    t.status.busy = false ∧ (s.tainted = false → UartOutcome frame auto xs t)

theorem UartGoes.of_finish {frame : Nat} {u : State} (r : Result) (htaint : u.tainted = s.tainted)
    (h : UartOutcome frame auto xs
      { u with status := .finished r, phase := .idle, w := Work.initial, finishedOnce := true }) :
    UartGoes frame auto analog xs s (u.finish r) := by
  refine .inr ⟨u.finish_busy r, fun ht => ?_⟩
  rwa [State.finish_of_not_tainted (htaint.trans ht)]

/-- A micro-step of the scan: one index, or its end. -/
theorem uart_scan_move {frame : Nat} (h : AtScan analog xs s) (hb : s.status.busy = true) :
    ∃ t, move (.uart dbits par stop2 auto analog) s = .next t ∧ UartGoes frame auto analog xs s t := by
  obtain ⟨hphase, ⟨hcount, hbits, hdiag⟩, hindex, hlen, hruns, hlevel⟩ := h
  by_cases hlt : s.w.i < s.n
  · refine ⟨_, uartMove_scan hphase hb hlt (hlevel _ hlt), .inl ⟨.scan
      ⟨hphase, ⟨hcount, hbits, hdiag⟩, hlt, hlen, ?_, hlevel⟩, ?_⟩⟩
    · show addSample (xs.getD s.w.i false) s.w.i s.w.runs = runsOf (xs.take (s.w.i + 1))
      rw [runsOf_take_succ (hlen ▸ hlt), hruns]
    · rw [uartLeft_scan hphase]
      refine (uartLeft_scan (by exact hphase)).trans_lt ?_
      show s.n - (s.w.i + 1) + 3 * s.cfg.bitsCap.toNat + 6 < _
      omega
  · refine ⟨_, uartMove_scan_end hphase (Nat.le_of_not_lt hlt), .inl ⟨.period
      ⟨rfl, ⟨hcount, hbits, hdiag⟩, ?_⟩, ?_⟩⟩
    · exact hruns.trans (by rw [List.take_of_length_le (by omega)])
    · rw [uartLeft_scan hphase, uartLeft_period rfl]
      show 3 * s.cfg.bitsCap.toNat + 5 < _
      omega

/-- The micro-step of the bit period: no period, too many bits, or on to the bitstream. -/
theorem uart_period_move {frame : Nat} (h : AtPeriod xs s) :
    ∃ t, move (.uart dbits par stop2 auto analog) s = .next t ∧ UartGoes frame auto analog xs s t := by
  obtain ⟨hphase, ⟨hcount, hbits, hdiag⟩, hruns⟩ := h
  refine ⟨_, uartMove_period hphase, ?_⟩
  cases hp : uartPeriodOf auto s.op (runsOf xs) with
  | none =>
    rw [uartPeriod_of_none (hruns ▸ hp)]
    exact .of_finish _ rfl (.noPeriod hp rfl hdiag hcount)
  | some p =>
    obtain ⟨-, -, hoff, hbslen⟩ := hdiag
    obtain ⟨hist, heq⟩ := uartPeriod_of_some (hruns ▸ hp)
    rw [heq]
    by_cases hfits : s.bitCount xs p ≤ s.cfg.bitsCap.toNat
    · rw [uartStream_of_fits (by exact hruns ▸ hfits)]
      refine .inl ⟨.resample ⟨rfl, ⟨hp, rfl, rfl⟩, hfits, hruns, rfl, rfl, ?_, hcount, hoff⟩, ?_⟩
      · show s.w.bits.length ≤ _
        rw [hbits]
        exact Nat.zero_le _
      · rw [uartLeft_period hphase]
        refine (uartLeft_resample (by rfl)).trans_lt ?_
        show s.cfg.bitsCap.toNat - s.w.bits.length + 2 * s.cfg.bitsCap.toNat + 4 < _
        omega
    · rw [uartStream_of_exceeds (by exact hruns ▸ Nat.lt_of_not_le hfits)]
      exact .of_finish _ rfl (.bitsOverflow p ⟨hp, rfl, rfl⟩ (Nat.lt_of_not_le hfits) rfl hbslen hoff hcount)

theorem searchBound_le (s : State) : searchBound s ≤ s.w.bits.length + 1 := by
  have := Nat.div_le_self s.w.bits.length s.cfg.uartSearchDiv
  unfold searchBound
  omega

theorem searchBound_pos (s : State) : 0 < searchBound s := Nat.lt_of_lt_of_le Nat.one_pos (Nat.le_max_left ..)

/-- A micro-step of the bitstream: one bit, or its end, where it may be shorter than a frame. -/
theorem uart_resample_move (h : AtResample auto xs p s) :
    ∃ t, move (.uart dbits par stop2 auto analog) s = .next t ∧
      UartGoes (frameLength dbits par stop2) auto analog xs s t := by
  obtain ⟨hphase, ⟨hp, hbpNum, hbpDen⟩, hfits, hruns, hnum, hden, hbits, hcount, hoff⟩ := h
  refine ⟨_, uartMove_resample hphase, ?_⟩
  unfold uartResample
  rw [hruns, hnum, hden]
  by_cases hlt : s.w.bits.length < s.bitCount xs p
  · obtain ⟨⟨v, x⟩, he⟩ := streamEntry_of_lt hlt
    rw [he]
    refine .inl ⟨.resample ⟨hphase, ⟨hp, hbpNum, hbpDen⟩, hfits, hruns, hnum, hden, ?_, hcount, hoff⟩, ?_⟩
    · show (s.w.bits ++ [v]).length ≤ s.bitCount xs p
      rw [List.length_append]
      exact hlt
    · rw [uartLeft_resample hphase]
      refine (uartLeft_resample (by exact hphase)).trans_lt ?_
      show s.cfg.bitsCap.toNat - (s.w.bits ++ [v]).length + 2 * s.cfg.bitsCap.toNat + 4 < _
      rw [List.length_append, List.length_singleton]
      omega
  · have hlen : s.w.bits.length = s.bitCount xs p := by omega
    rw [streamEntry_of_ge (Nat.le_of_not_lt hlt)]
    have hbslen : BitVec.ofNat 32 s.w.bits.length = BitVec.ofNat 32 (s.bitCount xs p) := by rw [hlen]
    by_cases hshort : s.w.bits.length < frameLength dbits par stop2
    · simp only [hshort, if_true]
      exact .of_finish _ rfl
        (.tooShort p ⟨⟨hp, hbpNum, hbpDen⟩, hfits, hbslen⟩ (by exact hlen ▸ hshort) rfl hoff hcount)
    · simp only [hshort, if_false]
      refine .inl ⟨.search ⟨rfl, ⟨⟨⟨hp, hbpNum, hbpDen⟩, hfits, hbslen⟩, rfl, hlen ▸ Nat.le_of_not_lt hshort, hlen⟩,
        searchBound_pos s, hcount⟩, ?_⟩
      rw [uartLeft_resample hphase]
      refine (uartLeft_search (by rfl)).trans_lt ?_
      have hbound := searchBound_le s
      show searchBound s - 0 + s.w.bits.length + 2 < _
      omega

/-- A micro-step of the frame search: one offset, or its end. -/
theorem uart_search_move {frame : Nat} (h : AtSearch frame auto xs p s) :
    ∃ t, move (.uart dbits par stop2 auto analog) s = .next t ∧ UartGoes frame auto analog xs s t := by
  obtain ⟨hphase, ⟨⟨⟨hp, hbpNum, hbpDen⟩, hfits, hbslen⟩, hframe', hlong, hbits⟩, hbest, hcount⟩ := h
  refine ⟨_, uartMove_search hphase, ?_⟩
  unfold uartSearch
  by_cases ho : s.w.o < searchBound s
  · have hleft : ∀ u : State, u.phase = .search → searchBound u = searchBound s → u.w.o = s.w.o + 1 →
        u.w.bits.length = s.w.bits.length → uartLeft u < uartLeft s := by
      intro u hu hbound huo hubits
      rw [uartLeft_search hu, uartLeft_search hphase, hbound, huo, hubits]
      omega
    rw [if_pos ho]
    dsimp only
    split
    · exact .inl ⟨.search ⟨hphase, ⟨⟨⟨hp, hbpNum, hbpDen⟩, hfits, hbslen⟩, hframe', hlong, hbits⟩, ho, hcount⟩,
        hleft _ hphase rfl rfl rfl⟩
    · exact .inl ⟨.search ⟨hphase, ⟨⟨⟨hp, hbpNum, hbpDen⟩, hfits, hbslen⟩, hframe', hlong, hbits⟩, hbest, hcount⟩,
        hleft _ hphase rfl rfl rfl⟩
  · have hpointer : s.w.best ≤ s.bitCount xs p := by
      have := searchBound_le s
      omega
    have hzero : s.outCount.toNat = 0 := by rw [hcount]; rfl
    rw [if_neg ho]
    refine .inl ⟨.walk ⟨rfl, ⟨⟨⟨hp, hbpNum, hbpDen⟩, hfits, hbslen⟩, hframe', hlong, hbits⟩, ?_, ?_, hpointer, ?_⟩, ?_⟩
    · exact (BitVec.toNat_ofNat .. ▸ Nat.mod_le ..).trans_lt hbest
    · exact hzero.trans_le (Nat.zero_le _)
    · exact hzero.trans_le (Nat.zero_le _)
    · rw [uartLeft_search hphase]
      refine (uartLeft_walk (by rfl)).trans_lt ?_
      show s.w.bits.length - s.w.best + 1 < _
      omega

/-- A micro-step of the frame walk: one position, perhaps with the records of a frame, or its end. -/
theorem uart_walk_move (hd : 1 ≤ dbits.toNat) (h : AtWalk (frameLength dbits par stop2) auto xs p s) :
    ∃ t, move (.uart dbits par stop2 auto analog) s = .next t ∧
      UartGoes (frameLength dbits par stop2) auto analog xs s t := by
  obtain ⟨hphase, ⟨⟨⟨hp, hbpNum, hbpDen⟩, hfits, hbslen⟩, hframe, hlong, hbits⟩, hoff, hrecords, hpointer, hroom⟩ := h
  have hbound : searchBound s = max 1 (s.bitCount xs p / s.cfg.uartSearchDiv) := by rw [searchBound, hbits]
  have hframe1 : 1 ≤ frameLength dbits par stop2 := by unfold frameLength; omega
  refine ⟨_, uartMove_walk hphase, ?_⟩
  unfold uartWalk
  by_cases hin : s.w.p + s.w.frame ≤ s.w.bits.length
  · have hleft : ∀ u : State, u.phase = .walk → s.w.p < u.w.p → u.w.bits.length = s.w.bits.length →
        uartLeft u < uartLeft s := by
      intro u hu hup hubits
      rw [uartLeft_walk hu, uartLeft_walk hphase, hubits]
      omega
    rw [if_pos hin]
    split
    · have hfew := length_frameAnnotations_le (par := par) (stop2 := stop2) hd s
      obtain ⟨out, count, hcap, ⟨hgo, hcount⟩ | ⟨hend, hfull, hover⟩⟩ :=
        emitAll_cases (fun t => { t with w := { t.w with p := t.w.p + t.w.frame } })
          (frameAnnotations dbits par stop2 s) s hroom
      · rw [hgo]
        refine .inl ⟨.walk ⟨hphase, ⟨⟨⟨hp, hbpNum, hbpDen⟩, hfits, hbslen⟩, hframe, hlong, hbits⟩, hoff, ?_,
          hbits ▸ hin, hcap⟩, hleft _ hphase (by show s.w.p < s.w.p + s.w.frame; omega) rfl⟩
        show count.toNat ≤ s.w.p + s.w.frame
        omega
      · rw [hend]
        exact .of_finish _ rfl (.walked p ⟨⟨hp, hbpNum, hbpDen⟩, hfits, hbslen⟩ hlong (hbound ▸ hoff)
          (.inr ⟨rfl, hfull, show s.cfg.outCap.toNat < s.bitCount xs p by omega⟩) hcap
          (show count.toNat ≤ s.bitCount xs p by omega))
    · refine .inl ⟨.walk ⟨hphase, ⟨⟨⟨hp, hbpNum, hbpDen⟩, hfits, hbslen⟩, hframe, hlong, hbits⟩, hoff,
        hrecords.trans (Nat.le_succ _), ?_, hroom⟩, hleft _ hphase (Nat.lt_succ_self _) rfl⟩
      show s.w.p + 1 ≤ s.bitCount xs p
      omega
  · rw [if_neg hin]
    exact .of_finish _ rfl (.walked p ⟨⟨hp, hbpNum, hbpDen⟩, hfits, hbslen⟩ hlong (hbound ▸ hoff) (.inl rfl) hroom
      (hrecords.trans hpointer))

theorem UartAt.phase_ne_idle {frame : Nat} (h : UartAt frame auto analog xs s) : s.phase ≠ .idle := by
  cases h with
  | scan h | period h | resample h | search h | walk h => rw [h.phase]; exact nofun

theorem uart_move (hd : 1 ≤ dbits.toNat) (hb : s.status.busy = true)
    (h : UartAt (frameLength dbits par stop2) auto analog xs s) :
    ∃ t, move (.uart dbits par stop2 auto analog) s = .next t ∧
      UartGoes (frameLength dbits par stop2) auto analog xs s t := by
  cases h with
  | scan h => exact uart_scan_move h hb
  | period h => exact uart_period_move h
  | resample h => exact uart_resample_move h
  | search h => exact uart_search_move h
  | walk h => exact uart_walk_move hd h

/-! ## The whole operation -/

theorem Moved.tainted_of_busy {i : Instr} {s t : State} (h : Moved i s t) (ht : t.status.busy = true) :
    t.tainted = s.tainted := by
  cases h with
  | going h => exact h.tainted
  | ended r h => rw [State.finish_busy] at ht; cases ht

/-- A ready UART operation reaches its end, and unless the host has spoiled it, with one of the outcomes. -/
theorem exec_uart (hs : s.Ready (.uart dbits par stop2 auto analog)) (hlen : xs.length = s.n)
    (hlevel : ∀ j, j < s.n → uartLevel analog (firstState (.uart dbits par stop2 auto analog) s) j =
      .ok (xs.getD j false)) :
    ∃ t, exec (.uart dbits par stop2 auto analog) s = .next t ∧ t.Ended ∧
      (s.tainted = false → UartOutcome (frameLength dbits par stop2) auto xs t) := by
  have hd : 1 ≤ dbits.toNat := by
    have hlegal := hs.2.1
    simp only [legal, Instr.wf, Bool.and_eq_true, decide_eq_true_eq] at hlegal
    omega
  have hfuel : uartLeft (firstState (.uart dbits par stop2 auto analog) s) + 1 < s.stepBound := by
    rw [uartLeft_scan rfl]
    show s.n - 0 + 3 * s.cfg.bitsCap.toNat + 6 + 1 < s.stepBound
    unfold State.stepBound
    omega
  refine exec_finishes
    (fun u => UartAt (frameLength dbits par stop2) auto analog xs u ∧ u.tainted = s.tainted) _ uartLeft hs
    ⟨.scan ⟨rfl, ⟨rfl, rfl, rfl, rfl, rfl, rfl⟩, Nat.zero_le _, hlen, rfl, hlevel⟩, rfl⟩ hfuel
    fun u hb ⟨hu, htaint⟩ => ?_
  obtain ⟨t, hm, hgoes⟩ := uart_move hd hb hu
  refine ⟨t, hm, fun hbt => ?_, fun hbt ht => ?_⟩
  · obtain ⟨hat, hlt⟩ | ⟨hidle, -⟩ := hgoes
    · exact ⟨⟨hat, ((move_moved hm).tainted_of_busy hbt).trans htaint⟩, hlt⟩
    · rw [hidle] at hbt; cases hbt
  · obtain ⟨hat, hlt⟩ | ⟨-, hout⟩ := hgoes
    · exact absurd ((move_moved hm).ended_of_idle hb hbt).phase hat.phase_ne_idle
    · exact hout (htaint.trans ht)

theorem State.Streamed.bslen_toNat (h : s.Streamed auto xs p) : s.uartBslen.toNat = s.bitCount xs p := by
  have hcap := s.cfg.bitsCap.isLt
  rw [h.bslen, BitVec.toNat_ofNat]
  exact Nat.mod_eq_of_lt (h.fits.trans_lt hcap)

/-- The outcome when no run length repeats in auto mode (46_uart.md R117). -/
theorem UartOutcome.of_noPeriod {frame : Nat} (h : UartOutcome frame auto xs s)
    (hnone : uartPeriodOf auto s.op (runsOf xs) = none) : s.status.result = 1 ∧ s.DiagReset ∧ s.outCount = 0 := by
  cases h with
  | noPeriod _ hresult hdiag hcount => exact ⟨hresult, hdiag, hcount⟩
  | bitsOverflow p hperiod => exact absurd (hnone.symm.trans hperiod.found) nofun
  | tooShort p hstreamed => exact absurd (hnone.symm.trans hstreamed.period.found) nofun
  | walked p hstreamed => exact absurd (hnone.symm.trans hstreamed.period.found) nofun

/-- The outcomes once the bit period is known, by the length of the bitstream (60 R139 to R141). -/
theorem UartOutcome.of_period {frame : Nat} (h : UartOutcome frame auto xs s)
    (hp : uartPeriodOf auto s.op (runsOf xs) = some p) :
    s.bpNum = BitVec.ofNat 32 p.1 ∧ s.bpDen = BitVec.ofNat 64 p.2 ∧
      (s.cfg.bitsCap.toNat < s.bitCount xs p →
        s.status.result = 5 ∧ s.uartBslen = 0 ∧ s.uartOffset = 0 ∧ s.outCount = 0) ∧
      (s.bitCount xs p ≤ s.cfg.bitsCap.toNat → s.uartBslen.toNat = s.bitCount xs p ∧
        (s.bitCount xs p < frame → s.status.result = 2 ∧ s.uartOffset = 0 ∧ s.outCount = 0) ∧
        (frame ≤ s.bitCount xs p →
          s.uartOffset.toNat < max 1 (s.bitCount xs p / s.cfg.uartSearchDiv) ∧
          (s.status.result = 0 ∨ s.status.result = 4 ∧ s.outCount = s.cfg.outCap) ∧
          s.outCount.toNat ≤ s.cfg.outCap.toNat ∧ s.outCount.toNat ≤ s.bitCount xs p ∧
          (s.bitCount xs p ≤ s.cfg.outCap.toNat → s.status.result = 0))) := by
  cases h with
  | noPeriod hnone => exact absurd (hnone.symm.trans hp) nofun
  | bitsOverflow p' hperiod hexceeds hresult hbslen hoff hcount =>
    obtain rfl : p' = p := Option.some.inj (hperiod.found.symm.trans hp)
    exact ⟨hperiod.num, hperiod.den, fun _ => ⟨hresult, hbslen, hoff, hcount⟩,
      fun hle => absurd hexceeds (Nat.not_lt.2 hle)⟩
  | tooShort p' hstreamed hshort hresult hoff hcount =>
    obtain rfl : p' = p := Option.some.inj (hstreamed.period.found.symm.trans hp)
    exact ⟨hstreamed.period.num, hstreamed.period.den, fun hlt => absurd hstreamed.fits (Nat.not_le.2 hlt),
      fun _ => ⟨hstreamed.bslen_toNat, fun _ => ⟨hresult, hoff, hcount⟩, fun hle => absurd hshort (Nat.not_lt.2 hle)⟩⟩
  | walked p' hstreamed hlong hoff hresult hroom hrecords =>
    obtain rfl : p' = p := Option.some.inj (hstreamed.period.found.symm.trans hp)
    refine ⟨hstreamed.period.num, hstreamed.period.den, fun hlt => absurd hstreamed.fits (Nat.not_le.2 hlt),
      fun _ => ⟨hstreamed.bslen_toNat, fun hlt => absurd hlong (Nat.not_le.2 hlt),
        fun _ => ⟨hoff, ?_, hroom, hrecords, ?_⟩⟩⟩
    · exact hresult.imp_right fun ⟨hcode, hfull, _⟩ => ⟨hcode, hfull⟩
    · exact fun hle => hresult.resolve_right fun ⟨_, _, hlt⟩ => Nat.not_lt.2 hle hlt

/-- Some list holds the samples a ready UART operation scans. -/
theorem exists_uart_samples (hs : s.Ready (.uart dbits par stop2 auto analog)) :
    ∃ xs : List Bool, xs.length = s.n ∧ ∀ j, j < s.n →
      uartLevel analog (firstState (.uart dbits par stop2 auto analog) s) j = .ok (xs.getD j false) := by
  have hall (j : Fin s.n) := uartLevel_of_samplesWritten (s := firstState (.uart dbits par stop2 auto analog) s)
    (dbits := dbits) (par := par) (stop2 := stop2) (auto := auto) (analog := analog) hs.2.2 j.isLt
  choose x hx using hall
  refine ⟨List.ofFn x, List.length_ofFn, fun j hj => ?_⟩
  rw [List.getD_eq_getElem _ _ (by rwa [List.length_ofFn]), List.getElem_ofFn]
  exact hx ⟨j, hj⟩

end Uart

/-- Settles O17: one scan, the three loops of I2S, or the phases of UART. -/
theorem everyOperationFinishes : Obligations.EveryOperationFinishes := by
  intro i s hs
  have hends : ∃ t, exec i s = .next t ∧ t.Ended := by
    cases i with
    | edges | onewire | spi3 | spi4 | i2c | sync => exact exec_oneScan_finishes rfl hs
    | i2s => exact exec_i2s_finishes hs
    | uart =>
      obtain ⟨xs, hlen, hlevel⟩ := exists_uart_samples hs
      obtain ⟨t, ht, hend, -⟩ := exec_uart hs hlen hlevel
      exact ⟨t, ht, hend⟩
  obtain ⟨t, ht, hbusy, hdone, hresult, hphase, hwork⟩ := hends
  exact ⟨t, ht, hbusy, hdone, hresult, hphase, hwork⟩

/-- Settles O58: the outcomes of `exec_uart`, read with the operands and parameters the operation keeps. -/
theorem uartOperationOutcome : Obligations.UartOperationOutcome := by
  intro d par st au an s xs hs htaint hlen hdigital hanalog
  have hlevel : ∀ j, j < s.n → uartLevel an (firstState (.uart d par st au an) s) j = .ok (xs.getD j false) := by
    refine fun j hj => uartLevel_eq hj (fun h => hdigital h j hj) fun h => ?_
    obtain ⟨v, hv, hx⟩ := hanalog h j hj
    subst h
    exact ⟨v, hv, hx⟩
  obtain ⟨t, ht, hend, hout⟩ := exec_uart hs hlen hlevel
  obtain ⟨hop, hcfg⟩ := exec_op_cfg ht
  rw [← hop, ← hcfg]
  refine ⟨t, ht, hend.busy, hend.done, fun hau hnone => ?_, fun p hp => ?_⟩
  · have hno : uartPeriodOf au t.op (runsOf xs) = none := by simp [uartPeriodOf, hau, hnone]
    obtain ⟨hresult, ⟨hnum, hden, hoff, hbslen⟩, hcount⟩ := (hout htaint).of_noPeriod hno
    exact ⟨hresult, hnum, hden, hbslen, hoff, hcount⟩
  · exact (hout htaint).of_period (uartPeriodOf_eq_some.2 hp)

end Sys2Proof.Machine
end

section
/-! The post-pass: one record (O59) and all of them (O60). -/

namespace Sys2Proof.Machine

/-! ## Records and word writes -/

theorem byteAt_congr {m m' : Mem} {a : Nat} (h : storeRead m a = storeRead m' a) : byteAt m a = byteAt m' a := by
  rw [byteAt, h, byteAt]

theorem wordAt_congr {m m' : Mem} {a : Nat} (h : ∀ j, j < 4 → storeRead m (a + j) = storeRead m' (a + j)) :
    wordAt m a = wordAt m' a := by
  unfold wordAt
  rw [byteAt_congr (h 3 (by decide)), byteAt_congr (h 2 (by decide)), byteAt_congr (h 1 (by decide)),
    byteAt_congr (a := a) (h 0 (by decide))]

theorem recStart_lt (m : Mem) (k : Nat) : recStart m k < 2 ^ 32 := (wordAt m (16 * k)).isLt

/-- `m'` holds the records of `m`, but for their STARTs. -/
def SameButStart (m m' : Mem) : Prop := ∀ k, recordAt m' k = { recordAt m k with start := recStart m' k }

theorem SameButStart.refl (m : Mem) : SameButStart m m := fun _ => rfl

theorem SameButStart.trans {m m' m'' : Mem} (h : SameButStart m m') (h' : SameButStart m' m'') :
    SameButStart m m'' := fun k => by rw [h' k, h k]

theorem SameButStart.recStop {m m' : Mem} (h : SameButStart m m') (k : Nat) : recStop m' k = recStop m k :=
  congrArg RecordView.stop (h k)

/-- Writing the START word of a record changes that field only (20_memory.md R48). -/
theorem sameButStart_writeWord (m : Mem) (j : Nat) (v : Word) : SameButStart m (writeWord m (16 * j) v) := by
  intro k
  have hword (c : Nat) (hc : 4 ≤ c) (hc' : c ≤ 12) :
      wordAt (writeWord m (16 * j) v) (16 * k + c) = wordAt m (16 * k + c) :=
    wordAt_writeWord_other m v (by omega)
  simp only [recordAt, hword 4 (by decide) (by decide), hword 8 (by decide) (by decide), hword 12 (by decide) (by decide)]
  rfl

theorem recStart_writeWord_same (m : Mem) (j : Nat) (v : Word) : recStart (writeWord m (16 * j) v) j = v.toNat := by
  rw [recStart, wordAt_writeWord_same]

theorem recStart_writeWord_other (m : Mem) {j k : Nat} (v : Word) (h : k ≠ j) :
    recStart (writeWord m (16 * j) v) k = recStart m k := by
  rw [recStart, wordAt_writeWord_other _ _ (by omega), recStart]

/-! ## One record -/

/-- What the post-pass makes of OUT at record j: as it was, or a START moved back but not before the previous record's
(47_postprocess.md R129). -/
theorem widenRecord_cases {m : Mem} {n j : Nat} (hm : Ordered m n) (hj : j < n) :
    widenRecord m n j = m ∨ ∃ v : Word, widenRecord m n j = writeWord m (16 * j) v ∧ v.toNat ≤ recStart m j ∧
      (0 < j → recStart m (j - 1) ≤ v.toNat) := by
  unfold widenRecord
  split
  · split
    · next stop _ =>
      refine .inr ⟨_, rfl, ?_⟩
      have hprev : 0 < j → recStart m (j - 1) ≤ recStart m j := fun h => by
        have := hm.2 (j - 1) (by omega)
        rwa [Nat.sub_add_cancel h] at this
      have hle : widenedStart m j stop ≤ recStart m j :=
        max_le (Nat.sub_le ..) (by split; exacts [hprev ‹_›, Nat.zero_le _])
      rw [BitVec.toNat_ofNat, Nat.mod_eq_of_lt (hle.trans_lt (recStart_lt m j))]
      exact ⟨hle, fun h => by simp [widenedStart, h]⟩
    · exact .inl rfl
  · exact .inl rfl

/-- One step of the post-pass keeps the order, moves no START forward and changes no other field (47_postprocess.md
R130). -/
theorem widenRecord_keeps {m : Mem} {n j : Nat} (hm : Ordered m n) (hj : j < n) :
    Ordered (widenRecord m n j) n ∧ SameButStart m (widenRecord m n j) ∧
      ∀ k, recStart (widenRecord m n j) k ≤ recStart m k := by
  obtain heq | ⟨v, heq, hle, hprev⟩ := widenRecord_cases hm hj
  · rw [heq]
    exact ⟨hm, .refl m, fun k => le_rfl⟩
  rw [heq]
  have hsame := sameButStart_writeWord m j v
  have hstart (k : Nat) : recStart (writeWord m (16 * j) v) k = if k = j then v.toNat else recStart m k := by
    split
    · next h => rw [h, recStart_writeWord_same]
    · next h => rw [recStart_writeWord_other m v h]
  have hback (k : Nat) : recStart (writeWord m (16 * j) v) k ≤ recStart m k := by
    rw [hstart]
    split
    · next h => exact h ▸ hle
    · exact le_rfl
  refine ⟨⟨fun k hk => ?_, fun k hk => ?_⟩, hsame, hback⟩
  · exact (hback k).trans (hsame.recStop k ▸ hm.1 k hk)
  · by_cases hkj : k + 1 = j
    · subst hkj
      simpa [hstart] using hprev (Nat.succ_pos k)
    · rw [hstart (k + 1), if_neg hkj]
      exact (hback k).trans (hm.2 k hk)

/-! ## The whole post-pass -/

theorem widenMove_record {s : State} (h : s.w.j < s.outCount.toNat) :
    widenMove s = { s with
      out := widenRecord s.out s.outCount.toNat s.w.j
      w := { s.w with j := s.w.j + 1 } } := if_pos h

theorem widenMove_end {s : State} (h : s.outCount.toNat ≤ s.w.j) : widenMove s = s.finish .ok := if_neg (Nat.not_lt.2 h)

/-- In the post-pass of an operation that was not spoiled, with the records of `m` but for STARTs moved back. -/
structure Widening (m : Mem) (n : Word) (s : State) : Prop where
  phase : s.phase = .widen
  tainted : s.tainted = false
  outCount : s.outCount = n
  ordered : Ordered s.out n.toNat
  same : SameButStart m s.out
  back : ∀ k, recStart s.out k ≤ recStart m k

/-- How the post-pass leaves the records of `m` (47_postprocess.md R130). -/
structure Widened (m : Mem) (n : Word) (s : State) : Prop where
  status : s.status = .finished .ok
  outCount : s.outCount = n
  ordered : Ordered s.out n.toNat
  same : SameButStart m s.out
  back : ∀ k, recStart s.out k ≤ recStart m k

/-- From record j on the post-pass takes one micro-step per record and one to end. -/
theorem runMoves_widen {i : Instr} (hi : widens i = true) {m : Mem} {n : Word} :
    ∀ (fuel : Nat) (s : State), s.status.busy = true → Widening m n s → n.toNat < s.w.j + fuel →
      0 < fuel → ∃ t, runMoves (move i) fuel s = .next t ∧ Widened m n t
  | 0, _, _, _, _, hpos => absurd hpos (Nat.lt_irrefl 0)
  | fuel + 1, s, hb, ⟨hphase, htaint, hcount, hord, hsame, hback⟩, hfuel, _ => by
    have hm := move_of_widen hi hphase
    subst hcount
    by_cases hj : s.w.j < s.outCount.toNat
    · rw [widenMove_record hj] at hm
      rw [runMoves_succ hb hm]
      obtain ⟨hord', hsame', hback'⟩ := widenRecord_keeps hord hj
      exact runMoves_widen hi fuel _ hb
        ⟨hphase, htaint, rfl, hord', hsame.trans hsame', fun k => (hback' k).trans (hback k)⟩
        (show s.outCount.toNat < s.w.j + 1 + fuel by omega) (by omega)
    · rw [widenMove_end (Nat.le_of_not_lt hj), State.finish_of_not_tainted htaint] at hm
      rw [runMoves_succ hb hm, runMoves_of_idle _ _ rfl]
      exact ⟨_, rfl, rfl, rfl, hord, hsame, hback⟩

/-- Settles O60: every step of the post-pass keeps what `Widening` says. -/
theorem widenKeepsOrder : Obligations.WidenKeepsOrder := by
  intro i s hi hb htaint hphase hj hord
  have hfuel : s.outCount.toNat < s.w.j + s.stepBound := by
    unfold State.stepBound
    omega
  obtain ⟨t, ht, hstatus, hcount, hord', hsame, hback⟩ := runMoves_widen hi s.stepBound s hb
    ⟨hphase, htaint, rfl, hord, .refl _, fun _ => le_rfl⟩ hfuel (by omega)
  exact ⟨t, exec_eq_runMoves i s ▸ ht, hstatus, hcount, hcount ▸ hord', fun k _ => ⟨hback k, hsame k⟩⟩

/-! ## The scan's end, and what one step of the post-pass writes -/

theorem move_of_scan_end {i : Instr} {s : State} (hi : oneScan i = true) (hphase : s.phase = .scan)
    (hn : s.n ≤ s.w.i) : move i s = .next (scanEnd i s) := by
  rw [move_of_scanning (hphase ▸ scanning_of_oneScan hi), scanMove_of_ge hn]

theorem widenMove_of_widens {i : Instr} {s : State} {out : Mem} (hi : widens i = true) (hphase : s.phase = .widen)
    (hj : s.w.j < s.outCount.toNat) (hout : widenRecord s.out s.outCount.toNat s.w.j = out) :
    move i s = .next { s with out := out, w := { s.w with j := s.w.j + 1 } } := by
  rw [move_of_widen hi hphase, widenMove_record hj, hout]

/-- The next stop marker is the first record after j with label P (47_postprocess.md R129). -/
theorem nextStop_eq_some {out : Mem} {n j m : Nat} (hj : j < m) (hm : m < n) (hlabel : recLabel out m = 0x02)
    (hfirst : ∀ m', j < m' → m' < m → recLabel out m' ≠ 0x02) : nextStop out n j = some m := by
  refine List.find?_range'_eq_some.2 ⟨beq_iff_eq.2 hlabel, List.mem_range'_1.2 ⟨hj, by omega⟩, fun m' h1 h2 => ?_⟩
  have hne : recLabel out m' ≠ Label.pMark.code := hfirst m' h1 h2
  simpa using hne

theorem nextStop_eq_none {out : Mem} {n j : Nat} (hno : ∀ m, j < m → m < n → recLabel out m ≠ 0x02) :
    nextStop out n j = none := by
  refine List.find?_eq_none.2 fun m hm => ?_
  obtain ⟨h1, h2⟩ := List.mem_range'_1.1 hm
  exact fun hlabel => hno m h1 (by omega) (beq_iff_eq.1 hlabel)

/-- A zero-width S before a stop marker m (47_postprocess.md R129). -/
theorem widenRecord_of_stop {out : Mem} {n j m : Nat} (hlabel : recLabel out j = 0x01)
    (hzero : recStart out j = recStop out j) (hstop : nextStop out n j = some m) :
    widenRecord out n j = writeWord out (16 * j) (BitVec.ofNat 32 (widenedStart out j m)) := by
  have hS : recLabel out j = Label.sMark.code := hlabel
  simp [widenRecord, hS, hzero, hstop]

/-- Any other record (47_postprocess.md R129). -/
theorem widenRecord_of_other {out : Mem} {n j : Nat}
    (h : recLabel out j ≠ 0x01 ∨ recStart out j ≠ recStop out j ∨ nextStop out n j = none) :
    widenRecord out n j = out := by
  unfold widenRecord
  split
  · next hS =>
    obtain h | h | h := h
    · exact absurd hS.1 h
    · exact absurd hS.2 h
    · rw [h]
  · rfl

/-- Settles O59: the scan's end is `scanEnd`, a step of the post-pass is `widenRecord`. -/
theorem widenOneRecord : Obligations.WidenOneRecord := by
  refine fun i s => ⟨fun hi hphase hn => ?_, fun hi hphase hn => ?_, fun hi hphase hj => ?_,
    fun hi hphase hj => ⟨fun m hlabel hzero hjm hm hstop hfirst => ?_, fun hother => ?_⟩⟩
  · cases i with
    | spi3 | spi4 | i2c => exact move_of_scan_end rfl hphase hn
    | edges | onewire | sync | i2s | uart => cases hi
  · obtain ⟨f, k, rfl⟩ | rfl | ⟨c, rfl⟩ := hi <;> exact move_of_scan_end rfl hphase hn
  · rw [move_of_widen hi hphase, widenMove_end hj]
  · exact widenMove_of_widens hi hphase hj (widenRecord_of_stop hlabel hzero (nextStop_eq_some hjm hm hstop hfirst))
  · exact widenMove_of_widens hi hphase hj (widenRecord_of_other (hother.imp_right (.imp_right nextStop_eq_none)))

end Sys2Proof.Machine
end

section
/-! What a micro-step does, as data (for O23, O26, O27): decided by the parameters, the latched operands, the working
registers and the samples read. -/

namespace Sys2Proof.Machine

/-! ## Acts -/

/-- `s` with the registers of `u` that a running operation writes, OUT_COUNT apart. -/
def State.withRegs (s u : State) : State :=
  { s with
    bpNum := u.bpNum
    bpDen := u.bpDen
    uartOffset := u.uartOffset
    uartBslen := u.uartBslen
    phase := u.phase
    w := u.w }

/-- What a micro-step does: emit annotations in order (perhaps none) and go on with the registers of `u`, emit an index
word and go on (EDGES), or finish with those registers. -/
inductive Act
  | emits (as : List Annotation) (u : State)
  | index (v : Nat) (u : State)
  | ends (r : Result) (u : State)

def Act.run : Act → State → State
  | .emits as u, s => State.emitAll as s (·.withRegs u)
  | .index v u, s => s.emitIndex v (·.withRegs u)
  | .ends r u, s => (s.withRegs u).finish r

/-- `r` with everything of `s` that decides a micro-step, the samples and OUT_COUNT apart. -/
def State.carrying (r s : State) : State := { r.withRegs s with cfg := s.cfg, op := s.op }

/-- On every state that carries what `s` does, `f` does one and the same act, which satisfies `P`. -/
def Acts (P : Act → Prop) (f : State → State) (s : State) : Prop :=
  ∃ act, P act ∧ ∀ r : State, f (r.carrying s) = act.run (r.carrying s)

section Acts
variable {P : Act → Prop} {f g : State → State} {s : State}

theorem Acts.ite {c : State → Prop} [DecidablePred c] (hc : ∀ r : State, c (r.carrying s) ↔ c s)
    (hf : c s → Acts P f s) (hg : ¬ c s → Acts P g s) : Acts P (fun u => if c u then f u else g u) s := by
  by_cases hs : c s
  · obtain ⟨act, hP, hrun⟩ := hf hs
    exact ⟨act, hP, fun r => (if_pos ((hc r).2 hs)).trans (hrun r)⟩
  · obtain ⟨act, hP, hrun⟩ := hg hs
    exact ⟨act, hP, fun r => (if_neg (mt (hc r).1 hs)).trans (hrun r)⟩

theorem Acts.iteConst (c : Prop) [Decidable c] (hf : Acts P f s) (hg : Acts P g s) :
    Acts P (fun u => if c then f u else g u) s :=
  .ite (fun _ => .rfl) (fun _ => hf) fun _ => hg

theorem Acts.congr (h : ∀ r : State, f (r.carrying s) = g (r.carrying s)) (hg : Acts P g s) : Acts P f s := by
  obtain ⟨act, hP, hrun⟩ := hg
  exact ⟨act, hP, fun r => (h r).trans (hrun r)⟩

end Acts

/-! ## The order of the records of a scan -/

/-- The index at which the next record that is neither a start marker nor a byte would begin (41_onewire.md R78,
42_spi.md R90, 43_i2c.md R103); of SYNC, which has none, the current index. -/
def spanStart : Instr → Work → Nat
  | .onewire, w => w.entry
  | .spi3 _, w | .spi4 _ _, w | .i2c, w => w.last
  | .sync _, w => w.i
  | .edges _ _, _ | .i2s _ _ _ _, _ | .uart _ _ _ _ _, _ => 0

/-- The index of the first of the bits that wait to complete a byte, if some do (42_spi.md R92, R96, 43_i2c.md R104,
44_sync_serial.md R109). -/
def waitingFrom : Instr → Work → Option Nat
  | .spi3 _, w | .spi4 _ _, w => if w.bus = .active ∧ w.cnt ≠ 0 then some w.bs else none
  | .i2c, w => if w.bus = .active ∧ w.left ≠ 8 then some w.gs else none
  | .sync _, w => if w.cnt ≠ 0 then some w.bs else none
  | .onewire, _ | .edges _ _, _ | .i2s _ _ _ _, _ | .uart _ _ _ _ _, _ => none

/-- No record to come starts before `b`. -/
def Floor (i : Instr) (b : Nat) (w : Work) : Prop :=
  b ≤ spanStart i w ∧ spanStart i w ≤ w.i ∧ ∀ g ∈ waitingFrom i w, b ≤ g ∧ g ≤ spanStart i w

/-- What the step at one index does: change working registers, emit one record, in order with those before and after
it, or (EDGES) one index word. -/
inductive Orderly (i : Instr) (s : State) : Act → Prop
  | quiet {w : Work} (hi : w.i = s.w.i) (h : ∀ b, Floor i b s.w → Floor i b w) :
      Orderly i s (.emits [] { s with w := w })
  | record {a : Annotation} {w : Work} (hunit : unitOf i = 16) (hi : w.i = s.w.i)
      (h : ∀ b, Floor i b s.w → b ≤ a.start ∧ a.start ≤ a.stop ∧ a.stop ≤ s.w.i ∧ Floor i a.start w) :
      Orderly i s (.emits [a] { s with w := w })
  | word (hunit : unitOf i = 4) : Orderly i s (.index s.w.i s)

section Steps
variable {i : Instr} {s : State}

theorem Acts.quiet {f : State → State} {w : Work} (hi : w.i = s.w.i) (h : ∀ b, Floor i b s.w → Floor i b w)
    (hf : ∀ r : State, f (r.carrying s) = { r.carrying s with w := w }) : Acts (Orderly i s) f s :=
  ⟨_, .quiet hi h, hf⟩

theorem Acts.refl : Acts (Orderly i s) (fun u => u) s := .quiet rfl (fun _ => id) fun _ => rfl

/-- A record begins no earlier than `b`, and no bit waits after it. -/
theorem Acts.emitThen {f : State → State} {a : Annotation} {w : Work} (hunit : unitOf i = 16) (hi : w.i = s.w.i)
    (hstart : ∀ b, Floor i b s.w → b ≤ a.start ∧ a.start ≤ spanStart i w ∧ spanStart i w ≤ s.w.i)
    (hstop : a.stop = s.w.i) (hnone : waitingFrom i w = none)
    (hf : ∀ r : State, f (r.carrying s) = (r.carrying s).emitThen a w) : Acts (Orderly i s) f s := by
  refine ⟨_, .record hunit hi fun b hb => ?_, hf⟩
  obtain ⟨hba, haw, hwi⟩ := hstart b hb
  exact ⟨hba, hstop ▸ haw.trans hwi, hstop.le, haw, hi ▸ hwi, by simp [hnone]⟩

theorem edgesStep_acts (filt : Filter) (slot : BitVec 2) (l : Bool × Bool) :
    Acts (Orderly (.edges filt slot) s) (edgesStep filt l) s :=
  .ite (fun _ => .rfl) (fun _ => ⟨_, .word rfl, fun _ => rfl⟩) fun _ => .refl

/-! ### 1-Wire -/

theorem owEnter_acts (q : OwState) : Acts (Orderly .onewire s) (·.owEnter q) s :=
  .quiet (w := { s.w with ow := q, entry := s.w.i }) rfl
    (fun _ ⟨hb, he, _⟩ => ⟨hb.trans he, le_rfl, nofun⟩) fun _ => rfl

theorem owEmit_acts (l : Label) (c : Colour) (p : Payload) (q : OwState) :
    Acts (Orderly .onewire s) (·.owEmit l c p q) s :=
  .emitThen (a := { label := l, colour := c, start := s.w.entry, stop := s.w.i, payload := p })
    (w := { s.w with ow := q, entry := s.w.i }) rfl rfl (fun _ ⟨hb, he, _⟩ => ⟨hb, he, le_rfl⟩) rfl rfl
    fun r => owEmit_eq (r.carrying s) l c p q

theorem protocolError_acts (l : Label) : Acts (Orderly .onewire s) (·.protocolError l) s :=
  owEmit_acts l .error .none .idle

theorem owResetEnd_acts : Acts (Orderly .onewire s) owResetEnd s :=
  .ite (fun _ => .rfl) (fun _ => owEmit_acts ..) fun _ => protocolError_acts _

theorem owPresenceStart_acts : Acts (Orderly .onewire s) owPresenceStart s :=
  .ite (fun _ => .rfl) (fun _ => owEnter_acts _) fun _ => protocolError_acts _

theorem owPresenceEnd_acts : Acts (Orderly .onewire s) owPresenceEnd s :=
  .ite (fun _ => .rfl) (fun _ => owEmit_acts ..) fun _ => protocolError_acts _

theorem owSlotEnd_acts : Acts (Orderly .onewire s) owSlotEnd s :=
  .ite (fun _ => .rfl) (fun _ => owEmit_acts ..) fun _ =>
    .ite (fun _ => .rfl) (fun _ => owEmit_acts ..) fun _ => owEmit_acts ..

theorem owWatchdog_acts : Acts (Orderly .onewire s) owWatchdog s :=
  .ite (fun _ => .rfl) (fun _ => protocolError_acts _) fun _ => .refl

theorem owStep_acts (l : Bool × Bool) : Acts (Orderly .onewire s) (owStep l) s := by
  have hw (r : State) : (r.carrying s).w = s.w := rfl
  cases hq : s.w.ow with
  | idle =>
    exact .congr (fun r => by simp only [owStep, hw, hq])
      (.iteConst (fall l = true) (owEnter_acts .resetMasterPulse) .refl)
  | active | one | masterWritingZero | masterReadingZero =>
    exact .congr (fun r => by simp only [owStep, hw, hq])
      (.iteConst (fall l = true) (owEnter_acts .activeFallen) .refl)
  | resetMasterPulse =>
    exact .congr (fun r => by simp only [owStep, hw, hq]) (.iteConst (rise l = true) owResetEnd_acts .refl)
  | resetSlaveWait =>
    exact .congr (fun r => by simp only [owStep, hw, hq]) (.iteConst (fall l = true) owPresenceStart_acts .refl)
  | resetSlavePulse =>
    exact .congr (fun r => by simp only [owStep, hw, hq]) (.iteConst (rise l = true) owPresenceEnd_acts .refl)
  | activeFallen =>
    exact .congr (fun r => by simp only [owStep, hw, hq]) (.iteConst (rise l = true) owSlotEnd_acts owWatchdog_acts)

/-! ### SPI3 and SPI4 -/

/-- The two SPI decoders frame their transactions alike. -/
def isSpi : Instr → Bool
  | .spi3 _ | .spi4 _ _ => true
  | .edges _ _ | .onewire | .i2c | .sync _ | .i2s _ _ _ _ | .uart _ _ _ _ _ => false

theorem spi_cases (hi : isSpi i = true) : unitOf i = 16 ∧ (∀ w, spanStart i w = w.last) ∧
    ∀ w, waitingFrom i w = if w.bus = .active ∧ w.cnt ≠ 0 then some w.bs else none := by
  cases i with
  | spi3 | spi4 => exact ⟨rfl, fun _ => rfl, fun _ => rfl⟩
  | edges | onewire | i2c | sync | i2s | uart => cases hi

theorem spiOpen_acts (hi : isSpi i = true) : Acts (Orderly i s) spiOpen s := by
  obtain ⟨hunit, hspan, hwait⟩ := spi_cases hi
  refine .emitThen (a := { label := .sMark, colour := .event, start := s.w.i, stop := s.w.i, payload := .none })
    (w := { s.w with
      bus := .active, first := true, cnt := 0, acc := 0, mo := 0, mi := 0, rw := false, last := s.w.i })
    hunit rfl (fun b ⟨hb, hlast, _⟩ => ⟨hb.trans hlast, ?_⟩) rfl ?_ fun r => emit_work (r.carrying s) s.w _ fun w =>
      { w with bus := .active, first := true, cnt := 0, acc := 0, mo := 0, mi := 0, rw := false, last := w.i }
  · simp [hspan]
  · simp [hwait]

theorem spiClose_acts (hi : isSpi i = true) : Acts (Orderly i s) spiClose s := by
  obtain ⟨hunit, hspan, hwait⟩ := spi_cases hi
  have hw (r : State) : (r.carrying s).w = s.w := rfl
  cases hbus : s.w.bus with
  | active =>
    refine .emitThen (a := { label := .pMark, colour := .event, start := s.w.last, stop := s.w.i, payload := .none })
      (w := { s.w with bus := .idle }) hunit rfl (fun b ⟨hb, hlast, _⟩ => ?_) rfl ?_ fun r => ?_
    · rw [hspan] at hb hlast
      simp [hspan, hb, hlast]
    · simp [hwait]
    · simp only [spiClose, hw, hbus]
      exact emit_work (r.carrying s) s.w _ fun w => { w with bus := .idle }
  | idle => exact .congr (fun r => by simp only [spiClose, hw, hbus]) .refl

theorem spiStep_acts (hi : isSpi i = true) (ncs : Bool × Bool) (sampling : Bool) {bit : State → State}
    (hbit : s.w.bus = .active → Acts (Orderly i s) bit s) : Acts (Orderly i s) (spiStep ncs sampling bit) s :=
  .iteConst _ (spiOpen_acts hi) <| .iteConst _ (spiClose_acts hi) <|
    .ite (fun _ => .rfl) (fun h => hbit h.1) fun _ => .refl

/-- Where the byte begins that a bit at the current index belongs to. -/
theorem floor_spi_bit (hi : isSpi i = true) (hbus : s.w.bus = .active) {b : Nat} (h : Floor i b s.w) :
    b ≤ (if s.w.cnt = 0 then s.w.i else s.w.bs) ∧ (if s.w.cnt = 0 then s.w.i else s.w.bs) ≤ s.w.i := by
  obtain ⟨-, hspan, hwait⟩ := spi_cases hi
  simp only [Floor, hspan, hwait, hbus, true_and] at h
  split
  · omega
  · simp_all; omega

/-- A bit that does not complete its byte. -/
theorem spi_bit_quiet (hi : isSpi i = true) (hbus : s.w.bus = .active) {f : State → State} {w : Work}
    (hindex : w.i = s.w.i) (hlast : w.last = s.w.i) (hbs : w.bs = if s.w.cnt = 0 then s.w.i else s.w.bs)
    (hf : ∀ r : State, f (r.carrying s) = { r.carrying s with w := w }) : Acts (Orderly i s) f s := by
  refine .quiet hindex (fun b h => ?_) hf
  obtain ⟨-, hspan, hwait⟩ := spi_cases hi
  have hbit := floor_spi_bit hi hbus h
  simp only [Floor, hspan, hwait, hlast, hindex, hbs]
  refine ⟨by omega, le_rfl, fun g hg => ?_⟩
  obtain ⟨-, hg⟩ := Option.mem_ite_none_right.1 hg
  cases hg; exact hbit

/-- The record of a completed byte. -/
theorem spi_byte_record (hi : isSpi i = true) (hbus : s.w.bus = .active) {f : State → State} {a : Annotation} {w : Work}
    (hindex : w.i = s.w.i) (hlast : w.last = s.w.i) (hcnt : w.cnt = 0)
    (hstart : a.start = if s.w.cnt = 0 then s.w.i else s.w.bs) (hstop : a.stop = s.w.i)
    (hf : ∀ r : State, f (r.carrying s) = (r.carrying s).emitThen a w) : Acts (Orderly i s) f s := by
  obtain ⟨hunit, hspan, hwait⟩ := spi_cases hi
  refine .emitThen hunit hindex (fun b h => ?_) hstop (by simp [hwait, hcnt]) hf
  rw [hspan, hlast, hstart]
  exact ⟨(floor_spi_bit hi hbus h).1, (floor_spi_bit hi hbus h).2, le_rfl⟩

/-- `SPI3_BYTE` with the last bit shifted in (42_spi.md R93). -/
theorem spi3Byte_acts (rwpos : BitVec 3) (b : Bool) (hbus : s.w.bus = .active) :
    Acts (Orderly (.spi3 rwpos) s) (fun u => spi3Byte rwpos { u with w := spi3Shift b u.w }) s := by
  refine .ite (c := fun u => u.w.first = true) (fun _ => .rfl) (fun _ => ?_) fun _ => ?_
  · exact spi_byte_record rfl hbus
      (a := { label := .address, colour := .address, start := (spi3Shift b s.w).bs, stop := s.w.i,
              payload := payloadOf (spi3Shift b s.w).acc 8 })
      (w := { spi3Shift b s.w with
        rw := (spi3Shift b s.w).acc.getLsbD rwpos.toNat, first := false, cnt := 0, acc := 0 })
      rfl rfl rfl rfl rfl fun r => emit_work (r.carrying s) (spi3Shift b s.w) _ fun w =>
        { w with rw := w.acc.getLsbD rwpos.toNat, first := false, cnt := 0, acc := 0 }
  · exact spi_byte_record rfl hbus
      (a := { label := if s.w.rw then .read else .write, colour := .data, start := (spi3Shift b s.w).bs, stop := s.w.i,
              payload := payloadOf (spi3Shift b s.w).acc 8 })
      (w := { spi3Shift b s.w with cnt := 0, acc := 0 })
      rfl rfl rfl rfl rfl fun r => emit_work (r.carrying s) (spi3Shift b s.w) _ fun w => { w with cnt := 0, acc := 0 }

theorem spi3Bit_acts (rwpos : BitVec 3) (b : Bool) (hbus : s.w.bus = .active) :
    Acts (Orderly (.spi3 rwpos) s) (spi3Bit rwpos b) s :=
  .ite (c := fun u => (spi3Shift b u.w).cnt = 8) (fun _ => .rfl) (fun _ => spi3Byte_acts rwpos b hbus) fun _ =>
    spi_bit_quiet rfl hbus (w := spi3Shift b s.w) rfl rfl rfl fun _ => rfl

/-- `SPI4_BYTE` with the last bits shifted in (42_spi.md R97). -/
theorem spi4Byte_acts (cpol : Bool) (cpha : ClockEdge) (mosi miso : Bool) (hbus : s.w.bus = .active) :
    Acts (Orderly (.spi4 cpol cpha) s) (fun u => spi4Byte { u with w := spi4Shift mosi miso u.w }) s := by
  have hrecord (l : Label) (c : Colour) (acc : Byte) : Acts (Orderly (.spi4 cpol cpha) s) (fun u =>
      ({ u with w := spi4Shift mosi miso u.w }).emit
        { label := l, colour := c, start := (spi4Shift mosi miso u.w).bs, stop := u.w.i, payload := payloadOf acc 8 }
        fun t => { t with w := { t.w with first := false, cnt := 0, mo := 0, mi := 0 } }) s :=
    spi_byte_record rfl hbus
      (a := { label := l, colour := c, start := (spi4Shift mosi miso s.w).bs, stop := s.w.i, payload := payloadOf acc 8 })
      (w := { spi4Shift mosi miso s.w with first := false, cnt := 0, mo := 0, mi := 0 })
      rfl rfl rfl rfl rfl fun r => emit_work (r.carrying s) (spi4Shift mosi miso s.w) _ fun w =>
        { w with first := false, cnt := 0, mo := 0, mi := 0 }
  have hmo := hrecord .mOut .data (spi4Shift mosi miso s.w).mo
  have hmi := hrecord .sOut .data (spi4Shift mosi miso s.w).mi
  have hcmd := hrecord .command .control (spi4Shift mosi miso s.w).mo
  refine .ite (c := fun u => u.w.first = true) (fun _ => .rfl) (fun _ => .congr (fun _ => rfl) hcmd) fun _ => ?_
  exact .ite (c := fun u => (spi4Shift mosi miso u.w).mo ≠ 0x00 ∧ (spi4Shift mosi miso u.w).mo ≠ 0xFF) (fun _ => .rfl)
    (fun _ => .congr (fun _ => rfl) hmo) fun _ => .congr (fun _ => rfl) hmi

theorem spi4Bit_acts (cpol : Bool) (cpha : ClockEdge) (mosi miso : Bool) (hbus : s.w.bus = .active) :
    Acts (Orderly (.spi4 cpol cpha) s) (spi4Bit mosi miso) s :=
  .ite (c := fun u => (spi4Shift mosi miso u.w).cnt = 8) (fun _ => .rfl)
    (fun _ => spi4Byte_acts cpol cpha mosi miso hbus) fun _ =>
    spi_bit_quiet rfl hbus (w := spi4Shift mosi miso s.w) rfl rfl rfl fun _ => rfl

/-! ### I2C -/

theorem i2cStart_acts : Acts (Orderly .i2c s) i2cStart s :=
  .emitThen (a := { label := .sMark, colour := .event, start := s.w.i, stop := s.w.i, payload := .none })
    (w := { s.w with bus := .active, acc := 0, left := 8, first := true, last := s.w.i })
    rfl rfl (fun _ ⟨hb, hlast, _⟩ => ⟨hb.trans hlast, le_rfl, le_rfl⟩) rfl (by simp [waitingFrom]) fun r =>
      emit_work (r.carrying s) s.w _ fun w => { w with bus := .active, acc := 0, left := 8, first := true, last := w.i }

theorem i2cStop_acts : Acts (Orderly .i2c s) i2cStop s := by
  have hw (r : State) : (r.carrying s).w = s.w := rfl
  cases hbus : s.w.bus with
  | active =>
    refine .emitThen (a := { label := .pMark, colour := .event, start := s.w.last, stop := s.w.i, payload := .none })
      (w := { s.w with bus := .idle }) rfl rfl (fun b ⟨hb, hlast, _⟩ => ⟨hb, le_rfl, hlast⟩) rfl
      (by simp [waitingFrom]) fun r => ?_
    simp only [i2cStop, hw, hbus]
    exact emit_work (r.carrying s) s.w _ fun w => { w with bus := .idle }
  | idle => exact .congr (fun r => by simp only [i2cStop, hw, hbus]) .refl

/-- Where the group begins that a bit at the current index belongs to. -/
theorem floor_i2c_bit (hbus : s.w.bus = .active) {b : Nat} (h : Floor .i2c b s.w) :
    b ≤ (if s.w.left = 8 then s.w.i else s.w.gs) ∧ (if s.w.left = 8 then s.w.i else s.w.gs) ≤ s.w.i := by
  obtain ⟨hb, hlast, hwait⟩ := h
  simp only [spanStart, waitingFrom, hbus, true_and] at hb hlast hwait
  split
  · omega
  · simp_all; omega

/-- The working registers of I2C after the first thing a bit does (43_i2c.md R104). -/
def groupStart (w : Work) : Work := { w with gs := if w.left = 8 then w.i else w.gs }

theorem i2cGroup_span (ack : Bool) (w : Work) : (i2cGroup ack w).start = w.gs ∧ (i2cGroup ack w).stop = w.i := by
  unfold i2cGroup
  split <;> exact ⟨rfl, rfl⟩

theorem i2cBit_acts (b : Bool) (hbus : s.w.bus = .active) : Acts (Orderly .i2c s) (i2cBit b) s := by
  refine .ite (c := fun u => u.w.left > 0) (fun _ => .rfl) (fun _ => ?_) fun _ => ?_
  · refine .quiet (w := { groupStart s.w with acc := shiftIn s.w.acc b, left := s.w.left - 1, last := s.w.i }) rfl
      (fun b h => ?_) fun _ => rfl
    have hbit := floor_i2c_bit hbus h
    refine ⟨by exact hbit.1.trans hbit.2, le_rfl, fun g hg => ?_⟩
    obtain ⟨-, hg⟩ := Option.mem_ite_none_right.1 hg
    cases hg; exact hbit
  · refine .emitThen (a := i2cGroup b (groupStart s.w))
      (w := { groupStart s.w with left := 8, acc := 0, first := false, last := s.w.i }) rfl rfl (fun b' h => ?_)
      (i2cGroup_span b _).2 (by simp [waitingFrom]) fun r => emit_work (r.carrying s) (groupStart s.w) _ fun w =>
        { w with left := 8, acc := 0, first := false, last := w.i }
    rw [(i2cGroup_span b _).1]
    exact ⟨(floor_i2c_bit hbus h).1, (floor_i2c_bit hbus h).2, le_rfl⟩

theorem i2cStep_acts (scl sda : Bool × Bool) : Acts (Orderly .i2c s) (i2cStep scl sda) s :=
  .iteConst _ i2cStart_acts <| .iteConst _ i2cStop_acts <|
    .ite (c := fun u => u.w.bus = .active ∧ rise scl = true) (fun _ => .rfl) (fun h => i2cBit_acts sda.2 h.1) fun _ =>
      .refl

/-! ### SYNC -/

/-- Where the byte begins that a bit at the current index belongs to. -/
theorem floor_sync_bit {cpha : ClockEdge} {b : Nat} (h : Floor (.sync cpha) b s.w) :
    b ≤ (if s.w.cnt = 0 then s.w.i else s.w.bs) ∧ (if s.w.cnt = 0 then s.w.i else s.w.bs) ≤ s.w.i := by
  obtain ⟨hb, -, hwait⟩ := h
  simp only [spanStart, waitingFrom] at hb hwait
  split
  · omega
  · simp_all

theorem syncStep_acts (cpha : ClockEdge) (sampling b : Bool) :
    Acts (Orderly (.sync cpha) s) (syncStep sampling b) s := by
  refine .iteConst _ ?_ .refl
  refine .ite (c := fun u => (syncShift b u.w).cnt = 8) (fun _ => .rfl) (fun _ => ?_) fun _ => ?_
  · exact .emitThen
      (a := { label := .data, colour := .data, start := (syncShift b s.w).bs, stop := s.w.i,
              payload := payloadOf (syncShift b s.w).acc 8 })
      (w := { syncShift b s.w with cnt := 0, acc := 0 }) rfl rfl
      (fun b' h => ⟨(floor_sync_bit h).1, (floor_sync_bit h).2, le_rfl⟩) rfl rfl fun r =>
        emit_work (r.carrying s) (syncShift b s.w) _ fun w => { w with cnt := 0, acc := 0 }
  · refine .quiet (w := syncShift b s.w) rfl (fun b' h => ?_) fun _ => rfl
    have hbit := floor_sync_bit h
    refine ⟨by exact hbit.1.trans hbit.2, le_rfl, fun g hg => ?_⟩
    replace hg : g ∈ if (syncShift b s.w).cnt ≠ 0 then some (syncShift b s.w).bs else none := hg
    obtain ⟨-, hg⟩ := Option.mem_ite_none_right.1 hg
    cases hg; exact hbit

/-! ### I2S and UART -/

theorem i2sFrameEdge_acts (bpw : BitVec 6) (delay : BitVec 4) (order : BitOrder) (bedge : ClockEdge) (l : Bool × Bool) :
    Acts (Orderly (.i2s bpw delay order bedge) s) (i2sFrameEdge l) s :=
  .iteConst _ (.quiet (w := { s.w with fe := s.w.fe ++ [s.w.i] }) rfl (fun _ => id) fun _ => rfl) .refl

theorem i2sBitEdge_acts (bpw : BitVec 6) (delay : BitVec 4) (order : BitOrder) (bedge : ClockEdge) (l : Bool × Bool) :
    Acts (Orderly (.i2s bpw delay order bedge) s) (i2sBitEdge bedge l) s :=
  .iteConst _ (.quiet (w := { s.w with be := s.w.be ++ [s.w.i] }) rfl (fun _ => id) fun _ => rfl) .refl

theorem uartScan_acts (dbits : BitVec 4) (par : Parity) (stop2 auto analog x : Bool) :
    Acts (Orderly (.uart dbits par stop2 auto analog) s)
      (fun u => { u with w := { u.w with runs := addSample x u.w.i u.w.runs } }) s :=
  .quiet (w := { s.w with runs := addSample x s.w.i s.w.runs }) rfl (fun _ => id) fun _ => rfl

end Steps

end Sys2Proof.Machine
end

section
/-! What a micro-step does, as data: every micro-step but the first one and those of the post-pass is an `Act`. -/

namespace Sys2Proof.Machine

/-! ## The samples read -/

/-- The samples an operation reads are the same in both states, and so is N (20_memory.md R41, R42). -/
structure SameSamples (i : Instr) (s s' : State) : Prop where
  n : s'.n = s.n
  slots : ∀ k ∈ opSlots i, ∀ j, j < s.n → sampleIn (s'.chan k) j = sampleIn (s.chan k) j
  analog : opReadsAnalog i = true → ∀ j, j < s.n → s'.ach j = s.ach j

section Samples
variable {i : Instr} {s s' : State}

theorem SameSamples.smp (h : SameSamples i s s') {k : BitVec 2} (hk : k ∈ opSlots i) (j : Nat) :
    s'.smp k j = s.smp k j := by
  unfold State.smp
  rw [h.n]
  split
  · next hj => rw [h.slots k hk j hj]
  · rfl

theorem SameSamples.levels (h : SameSamples i s s') {k : BitVec 2} (hk : k ∈ opSlots i) (j : Nat) :
    s'.levels k j = s.levels k j := by
  simp only [State.levels, h.smp hk]

theorem SameSamples.samplesAt (h : SameSamples i s s') {k : BitVec 2} (hk : k ∈ opSlots i) (is : List Nat) :
    samplesAt s' k is = samplesAt s k is := by
  induction is with
  | nil => rfl
  | cons j is ih => simp only [Machine.samplesAt, h.smp hk, ih]

theorem SameSamples.uartLevel {dbits : BitVec 4} {par : Parity} {stop2 auto analog : Bool}
    (h : SameSamples (.uart dbits par stop2 auto analog) s s') (htheta : s'.w.theta = s.w.theta) (j : Nat) :
    uartLevel analog s' j = uartLevel analog s j := by
  cases analog with
  | false => exact h.smp (k := 0) (by simp [opSlots]) j
  | true =>
    simp only [Machine.uartLevel, h.n, htheta, if_true]
    split
    · next hj => rw [h.analog rfl j hj]
    · rfl

end Samples

/-! ## One index of a scan -/

/-- The index moves on in the registers the act leaves (10_state.md R17). -/
def Act.next : Act → Act
  | .emits as u => .emits as { u with w := { u.w with i := u.w.i + 1 } }
  | .index v u => .index v { u with w := { u.w with i := u.w.i + 1 } }
  | .ends r u => .ends r u

theorem run_emits_advance (u : State) : ∀ (as : List Annotation) (s : State), s.status.busy = true →
    ((Act.emits as u).run s).advance = (Act.emits as u).next.run s
  | [], s, hb => State.advance_of_busy (s := s.withRegs u) hb
  | a :: as, s, hb => by
    simp only [Act.run, Act.next]
    by_cases hr : s.Room
    · rw [emitAll_room _ _ _ hr, emitAll_room _ _ _ hr]
      exact run_emits_advance u as (s.pushRecord a) hb
    · rw [emitAll_full _ _ _ hr, emitAll_full _ _ _ hr, State.advance_of_not_busy (State.finish_busy _ _)]

/-- What a scan makes of the step at an index is an act again. -/
theorem run_advance (act : Act) {s : State} (hb : s.status.busy = true) : (act.run s).advance = act.next.run s := by
  cases act with
  | emits as u => exact run_emits_advance u as s hb
  | index v u =>
    simp only [Act.run, Act.next]
    by_cases hr : s.outCount.toNat < 4 * s.cfg.outCap.toNat
    · rw [emitIndex_room _ _ hr, emitIndex_room _ _ hr]
      exact State.advance_of_busy hb
    · rw [emitIndex_full _ _ hr, emitIndex_full _ _ hr, State.advance_of_not_busy (State.finish_busy _ _)]
  | ends r u => exact State.advance_of_not_busy (State.finish_busy _ _)

/-- The step `f` answers on `s` with an act that satisfies `P`, and on what carries `s` with the same act. -/
def Answers (P : Act → Prop) (f : State → Except Fault State) (s r : State) (t : State) : Prop :=
  ∃ act, P act ∧ t = act.run s ∧ f (r.carrying s) = .ok (act.run (r.carrying s))

theorem Acts.answers {P : Act → Prop} {f : State → State} {s : State} (h : Acts P f s)
    {g : State → Except Fault State} {r : State} (hg : g (r.carrying s) = .ok (f (r.carrying s))) :
    Answers P g s r (f s) := by
  obtain ⟨act, hP, hrun⟩ := h
  exact ⟨act, hP, hrun s, hg.trans (congrArg _ (hrun r))⟩

/-- A read before a step that answers the same on both states. -/
theorem Answers.bind {α : Type} {P : Act → Prop} {read : State → Except Fault α}
    {f : α → State → Except Fault State} {s r t : State} (hread : read (r.carrying s) = read s) (h : read s >>= (fun a => f a s) = .ok t)
    (hf : ∀ a, read s = .ok a → f a s = .ok t → Answers P (f a) s r t) :
    Answers P (fun u => read u >>= fun a => f a u) s r t := by
  obtain ⟨a, ha, ht⟩ := ok_of_bind h
  obtain ⟨act, hP, hrun, hact⟩ := hf a ha ht
  refine ⟨act, hP, hrun, ?_⟩
  simp only [hread, ha]
  exact hact

theorem Answers.pure {P : Act → Prop} {f : State → State} {s r t : State} (h : Acts P f s)
    (ht : .ok (f s) = Except.ok (ε := Fault) t) : Answers P (fun u => .ok (f u)) s r t := by
  cases ht
  exact h.answers rfl

theorem scanStep_answers {i : Instr} {s r t : State} (hsame : SameSamples i s (r.carrying s)) (h : scanStep i s = .ok t) :
    Answers (Orderly i s) (scanStep i) s r t := by
  have hlevels (k : BitVec 2) (hk : k ∈ opSlots i) := hsame.levels hk s.w.i
  have hsmp (k : BitVec 2) (hk : k ∈ opSlots i) := hsame.smp hk s.w.i
  cases i with
  | edges filt slot => exact .bind (hlevels slot (by simp [opSlots])) h fun l _ => .pure (edgesStep_acts filt slot l)
  | onewire => exact .bind (hlevels 0 (by simp [opSlots])) h fun l _ => .pure (owStep_acts l)
  | spi3 rwpos =>
    exact .bind (hlevels 0 (by simp [opSlots])) h fun ncs _ h =>
      .bind (hlevels 1 (by simp [opSlots])) h fun clk _ h =>
      .bind (hsmp 2 (by simp [opSlots])) h fun d _ =>
      .pure (spiStep_acts rfl ncs (rise clk) (spi3Bit_acts rwpos d))
  | spi4 cpol cpha =>
    exact .bind (hlevels 0 (by simp [opSlots])) h fun ncs _ h =>
      .bind (hlevels 1 (by simp [opSlots])) h fun clk _ h =>
      .bind (hsmp 2 (by simp [opSlots])) h fun mosi _ h =>
      .bind (hsmp 3 (by simp [opSlots])) h fun miso _ =>
      .pure (spiStep_acts rfl ncs (edgeHit cpha clk) (spi4Bit_acts cpol cpha mosi miso))
  | i2c =>
    exact .bind (hlevels 0 (by simp [opSlots])) h fun scl _ h =>
      .bind (hlevels 1 (by simp [opSlots])) h fun sda _ => .pure (i2cStep_acts scl sda)
  | sync cpha =>
    exact .bind (hlevels 0 (by simp [opSlots])) h fun clk _ h =>
      .bind (hsmp 1 (by simp [opSlots])) h fun d _ => .pure (syncStep_acts cpha (edgeHit cpha clk) d)
  | i2s bpw delay order bedge =>
    exact .bind (hlevels 0 (by simp [opSlots])) h fun l _ => .pure (i2sFrameEdge_acts bpw delay order bedge l)
  | uart dbits par stop2 auto analog =>
    exact .bind (hsame.uartLevel rfl s.w.i) h fun x _ =>
      .pure (uartScan_acts dbits par stop2 auto analog x)

/-! ## One micro-step -/

/-- What holds of the act of a micro-step: the unit of OUT it writes, that the start does not come again, and that every
step of EDGES moves the index on, which is how many words it has written at most. -/
def Act.Fits (i : Instr) (s : State) : Act → Prop
  | .emits as u => (as ≠ [] → unitOf i = 16) ∧ u.phase ≠ .start ∧ (unitOf i = 4 → s.w.i < u.w.i)
  | .index _ u => unitOf i = 4 ∧ u.phase ≠ .start ∧ s.w.i < s.n ∧ s.w.i < u.w.i
  | .ends _ _ => True

theorem Orderly.next_fits {i : Instr} {s : State} {act : Act} (h : Orderly i s act) (hphase : s.phase ≠ .start)
    (hn : s.w.i < s.n) : act.next.Fits i s := by
  cases h with
  | quiet hi => exact ⟨fun h => absurd rfl h, hphase, fun _ => Nat.lt_succ_of_le hi.ge⟩
  | record hunit hi => exact ⟨fun _ => hunit, hphase, fun _ => Nat.lt_succ_of_le hi.ge⟩
  | word hunit => exact ⟨hunit, hphase, hn, Nat.lt_succ_self _⟩

/-- The micro-step `m` answers on `s` with an act that satisfies `P`, and on what carries `s` with the same act. -/
def MovesBy (P : Act → Prop) (m : State → Host.Outcome State Fault Refusal) (s r t : State) : Prop :=
  ∃ act, P act ∧ t = act.run s ∧ m (r.carrying s) = .next (act.run (r.carrying s))

section MovesBy
variable {i : Instr} {s r t : State}

theorem Acts.moves {P : Act → Prop} {f : State → State} {m : State → Host.Outcome State Fault Refusal}
    (h : Acts P f s) (hs : m s = .next (f s)) (hr : m (r.carrying s) = .next (f (r.carrying s)))
    (ht : m s = .next t) : MovesBy P m s r t := by
  obtain ⟨act, hP, hrun⟩ := h
  cases hs.symm.trans ht
  exact ⟨act, hP, hrun s, hr.trans (congrArg _ (hrun r))⟩

/-- One micro-step of a scan is an act when the step at an index and the scan's end are. -/
theorem scanMove_movesBy {stepAt : State → Except Fault State} {atEnd : State → State} (hb : s.status.busy = true)
    (hb' : r.status.busy = true) (hphase : s.phase ≠ .start)
    (hstep : ∀ u, stepAt s = .ok u → Answers (Orderly i s) stepAt s r u) (hend : Acts (Act.Fits i s) atEnd s) (h : scanMove stepAt atEnd s = .next t) :
    MovesBy (Act.Fits i s) (scanMove stepAt atEnd) s r t := by
  obtain ⟨hi, u, hu, rfl⟩ | ⟨hi, rfl⟩ := scanMove_next h
  · obtain ⟨act, hord, rfl, hact⟩ := hstep u hu
    have hi' : (r.carrying s).w.i < (r.carrying s).n := hi
    refine ⟨act.next, hord.next_fits hphase hi, run_advance act hb, ?_⟩
    rw [scanMove_of_lt hi' hact, run_advance act (s := r.carrying s) hb']
  · have hi' : (r.carrying s).n ≤ (r.carrying s).w.i := hi
    exact hend.moves h (scanMove_of_ge hi') h

/-- Going on with other registers. -/
theorem Acts.goes {f : State → State} (u : State) (hunit : unitOf i = 16) (hphase : u.phase ≠ .start)
    (hf : ∀ r : State, f (r.carrying s) = (r.carrying s).withRegs u) : Acts (Act.Fits i s) f s :=
  ⟨.emits [] u, ⟨fun _ => hunit, hphase, fun h => by omega⟩, hf⟩

theorem Acts.ends {f : State → State} (u : State) (res : Result)
    (hf : ∀ r : State, f (r.carrying s) = ((r.carrying s).withRegs u).finish res) : Acts (Act.Fits i s) f s :=
  ⟨.ends res u, trivial, hf⟩

theorem scanEnd_acts (i : Instr) (s : State) : Acts (Act.Fits i s) (scanEnd i) s := by
  cases i with
  | edges | onewire | sync => exact .ends s .ok fun _ => rfl
  | spi3 | spi4 | i2c => exact .goes s.beginWiden rfl nofun fun _ => rfl
  | i2s => exact .goes { s with phase := .bitEdges, w := { s.w with i := 1 } } rfl nofun fun _ => rfl
  | uart => exact .goes { s with phase := .period } rfl nofun fun _ => rfl

/-! ### I2S -/

section I2s
variable {bpw : BitVec 6} {delay : BitVec 4} {order : BitOrder} {bedge : ClockEdge}

theorem i2sWord_answers {f g : Nat} (hphase : s.phase ≠ .start)
    (hsame : SameSamples (.i2s bpw delay order bedge) s (r.carrying s)) (h : i2sWord bpw delay order f g s = .ok t) :
    Answers (Act.Fits (.i2s bpw delay order bedge) s) (i2sWord bpw delay order f g) s r t := by
  cases hwin : i2sWindow s.w.be delay.toNat bpw.toNat f g with
  | none =>
    cases (i2sWord_none hwin).symm.trans h
    exact ⟨.emits [] { s with w := { s.w with k := s.w.k + 1 } }, ⟨fun _ => rfl, hphase, nofun⟩, rfl,
      i2sWord_none (s := r.carrying s) hwin⟩
  | some win =>
    have h' := h
    simp only [i2sWord, hwin] at h'
    obtain ⟨bs, hbs, h'⟩ := ok_of_bind h'
    obtain ⟨lr, hlr, -⟩ := ok_of_bind h'
    have hbs' := (hsame.samplesAt (k := 2) (by simp [opSlots]) win).trans hbs
    have hlr' := (hsame.smp (k := 0) (by simp [opSlots]) f).trans hlr
    cases (i2sWord_eq hwin hbs hlr).symm.trans h
    exact ⟨.emits [_] { s with w := { s.w with wordAcc := i2sValue order bs, k := s.w.k + 1 } },
      ⟨fun _ => rfl, hphase, nofun⟩, rfl, i2sWord_eq (s := r.carrying s) hwin hbs' hlr'⟩

/-- A step of the word loop, foreign positions included (log entry 15). -/
theorem i2sMove_half {f g : Nat} (hstart : s.phase ≠ .start) (hscan : s.phase ≠ .scan) (hbits : s.phase ≠ .bitEdges)
    (hf : s.w.fe[s.w.k]? = some f) (hg : s.w.fe[s.w.k + 1]? = some g) :
    move (.i2s bpw delay order bedge) s = .next t ↔ i2sWord bpw delay order f g s = .ok t := by
  cases hph : s.phase with
  | start | scan | bitEdges => contradiction
  | idle | widen | words | period | resample | search | walk =>
    simp only [move, i2sMove, hph, hf, hg]
    cases i2sWord bpw delay order f g s <;> simp

/-- The end of the word loop, foreign positions included. -/
theorem i2sMove_last (hstart : s.phase ≠ .start) (hscan : s.phase ≠ .scan) (hbits : s.phase ≠ .bitEdges)
    (hg : s.w.fe[s.w.k + 1]? = none) : move (.i2s bpw delay order bedge) s = .next (s.finish .ok) := by
  cases hph : s.phase with
  | start | scan | bitEdges => contradiction
  | idle | widen | words | period | resample | search | walk =>
    simp only [move, i2sMove, hph, hg]
    cases s.w.fe[s.w.k]? <;> rfl

theorem i2sMove_movesBy (hb : s.status.busy = true) (hb' : r.status.busy = true)
    (hstart : s.phase ≠ .start) (hscan : s.phase ≠ .scan)
    (hsame : SameSamples (.i2s bpw delay order bedge) s (r.carrying s))
    (h : move (.i2s bpw delay order bedge) s = .next t) :
    MovesBy (Act.Fits (.i2s bpw delay order bedge) s) (move (.i2s bpw delay order bedge)) s r t := by
  by_cases hbits : s.phase = .bitEdges
  · rw [i2sMove_bitEdges hbits] at h
    obtain ⟨act, hfits, hrun, hact⟩ := scanMove_movesBy (r := r) hb hb' hstart
      (fun u hu => .bind (hsame.levels (k := 1) (by simp [opSlots]) _) hu fun l _ =>
        .pure (i2sBitEdge_acts bpw delay order bedge l))
      (.goes { s with phase := .words, w := { s.w with k := 0 } } rfl nofun fun _ => rfl) h
    exact ⟨act, hfits, hrun, (i2sMove_bitEdges (s := r.carrying s) hbits).trans hact⟩
  cases hg : s.w.fe[s.w.k + 1]? with
  | none =>
    exact (Acts.ends (f := (·.finish .ok)) s .ok fun _ => rfl).moves (i2sMove_last hstart hscan hbits hg)
      (i2sMove_last (s := r.carrying s) hstart hscan hbits hg) h
  | some g =>
    have hk : s.w.k < s.w.fe.length := Nat.lt_of_succ_lt (List.getElem?_eq_some_iff.1 hg).1
    have hf : s.w.fe[s.w.k]? = some s.w.fe[s.w.k] := List.getElem?_eq_getElem hk
    obtain ⟨act, hfits, hrun, hact⟩ := i2sWord_answers hstart hsame ((i2sMove_half hstart hscan hbits hf hg).1 h)
    exact ⟨act, hfits, hrun, (i2sMove_half (s := r.carrying s) hstart hscan hbits hf hg).2 hact⟩

end I2s

/-! ### UART -/

section Uart
variable {dbits : BitVec 4} {par : Parity} {stop2 auto analog : Bool}

theorem uartStream_acts {g : State → State} {u : State}
    (hg : ∀ r : State, g (r.carrying s) = (r.carrying s).withRegs u) :
    Acts (Act.Fits (.uart dbits par stop2 auto analog) s) (fun v => uartStream (g v)) s := by
  by_cases hlong : s.cfg.bitsCap.toNat < streamLength s.cfg.uartTie u.w.pNum u.w.pDen u.w.runs
  · exact .ends u .bitsOverflow fun r => by
      rw [hg]
      exact uartStream_of_exceeds (s := (r.carrying s).withRegs u) hlong
  · exact .goes { u with phase := .resample } rfl nofun fun r => by
      rw [hg]
      exact uartStream_of_fits (s := (r.carrying s).withRegs u) (Nat.le_of_not_lt hlong)

theorem uartPeriod_acts : Acts (Act.Fits (.uart dbits par stop2 auto analog) s) (uartPeriod auto) s := by
  cases auto with
  | false =>
    exact .congr (fun _ => rfl) <| uartStream_acts (g := fun v => v.setPeriod (baudPeriod v.op))
      (u := s.setPeriod (baudPeriod s.op)) fun _ => rfl
  | true =>
    have hw (r : State) : (r.carrying s).w = s.w := rfl
    cases hk : autobaud (histogram s.w.runs) with
    | none =>
      exact .ends { s with w := { s.w with hist := histogram s.w.runs } } .emptyNoPeriod fun r => by
        simp only [uartPeriod, if_true, hw, hk]
        rfl
    | some k =>
      refine .congr (fun r => ?_) (uartStream_acts
        (g := fun v => ({ v with w := { v.w with hist := histogram s.w.runs } }).setPeriod (k, 1))
        (u := ({ s with w := { s.w with hist := histogram s.w.runs } }).setPeriod (k, 1)) fun _ => rfl)
      simp only [uartPeriod, if_true, hw, hk]

theorem uartResample_acts (hphase : s.phase ≠ .start) :
    Acts (Act.Fits (.uart dbits par stop2 auto analog) s) (uartResample dbits par stop2) s := by
  have hw (r : State) : (r.carrying s).w = s.w := rfl
  have hcfg (r : State) : (r.carrying s).cfg = s.cfg := rfl
  cases he : streamEntry s.cfg.uartTie s.w.pNum s.w.pDen s.w.runs s.w.bits.length with
  | some e =>
    exact .goes { s with w := { s.w with bits := s.w.bits ++ [e.1], bidx := s.w.bidx ++ [e.2] } } rfl hphase fun r => by
      simp only [uartResample, hw, hcfg, he]
      rfl
  | none =>
    by_cases hshort : s.w.bits.length < frameLength dbits par stop2
    · exact .ends { s with
          uartBslen := BitVec.ofNat 32 s.w.bits.length
          w := { s.w with frame := frameLength dbits par stop2 } } .emptyTooShort fun r => by
        simp only [uartResample, hw, hcfg, he, hshort, if_true]
        rfl
    · exact .goes { s with
          uartBslen := BitVec.ofNat 32 s.w.bits.length
          phase := .search
          w := { s.w with frame := frameLength dbits par stop2, o := 0, best := 0, bestcnt := 0 } } rfl nofun fun r => by
        simp only [uartResample, hw, hcfg, he, hshort, if_false]
        rfl

theorem uartSearch_acts (hphase : s.phase ≠ .start) :
    Acts (Act.Fits (.uart dbits par stop2 auto analog) s) uartSearch s :=
  .ite (c := fun u => u.w.o < searchBound u) (fun _ => .rfl)
    (fun _ => .ite (c := fun u => u.w.bestcnt < matchCount u.w u.w.o) (fun _ => .rfl)
      (fun _ => .goes { s with
        w := { s.w with best := s.w.o, bestcnt := matchCount s.w s.w.o, o := s.w.o + 1 } } rfl hphase fun _ => rfl)
      fun _ => .goes { s with w := { s.w with o := s.w.o + 1 } } rfl hphase fun _ => rfl)
    fun _ => .goes { s with
      uartOffset := BitVec.ofNat 32 s.w.best, phase := .walk, w := { s.w with p := s.w.best } } rfl nofun fun _ => rfl

/-- What a step that emits goes on with may depend on OUT and OUT_COUNT, but is only ever applied to states that differ
from the one before in these. -/
theorem emitAll_congr {k k' : State → State} : ∀ (as : List Annotation) (s : State),
    (∀ out count, k { s with out := out, outCount := count } = k' { s with out := out, outCount := count }) →
    State.emitAll as s k = State.emitAll as s k'
  | [], s, h => h s.out s.outCount
  | a :: as, s, h => by
    by_cases hr : s.Room
    · rw [emitAll_room _ _ _ hr, emitAll_room _ _ _ hr]
      exact emitAll_congr as (s.pushRecord a) h
    · rw [emitAll_full _ _ _ hr, emitAll_full _ _ _ hr]

theorem uartWalk_acts (hphase : s.phase ≠ .start) :
    Acts (Act.Fits (.uart dbits par stop2 auto analog) s) (uartWalk dbits par stop2) s :=
  .ite (c := fun u => u.w.p + u.w.frame ≤ u.w.bits.length) (fun _ => .rfl)
    (fun _ => .ite (c := fun u => frameOk stop2 u.w = true) (fun _ => .rfl)
      (fun _ => ⟨.emits (frameAnnotations dbits par stop2 s) { s with w := { s.w with p := s.w.p + s.w.frame } },
        ⟨fun _ => rfl, hphase, nofun⟩, fun r => emitAll_congr _ (r.carrying s) fun _ _ => rfl⟩)
      fun _ => .goes { s with w := { s.w with p := s.w.p + 1 } } rfl hphase fun _ => rfl)
    fun _ => .ends s .ok fun _ => rfl

theorem uartMove_movesBy (hstart : s.phase ≠ .start)
    (hscan : ¬ scanning (.uart dbits par stop2 auto analog) s.phase = true)
    (h : move (.uart dbits par stop2 auto analog) s = .next t) :
    MovesBy (Act.Fits (.uart dbits par stop2 auto analog) s) (move (.uart dbits par stop2 auto analog)) s r t := by
  cases hph : s.phase with
  | start => exact absurd hph hstart
  | period =>
    exact uartPeriod_acts.moves (uartMove_period hph) (uartMove_period (s := r.carrying s) hph) h
  | resample =>
    exact (uartResample_acts hstart).moves (uartMove_resample hph) (uartMove_resample (s := r.carrying s) hph) h
  | search => exact (uartSearch_acts hstart).moves (uartMove_search hph) (uartMove_search (s := r.carrying s) hph) h
  | walk => exact (uartWalk_acts hstart).moves (uartMove_walk hph) (uartMove_walk (s := r.carrying s) hph) h
  | idle | scan | widen | bitEdges | words => rw [hph] at hscan; exact absurd rfl hscan

end Uart

/-- Every micro-step but the first one and those of the post-pass is an act, decided by what a state carries and the
samples read. -/
theorem move_movesBy (hb : s.status.busy = true) (hb' : r.status.busy = true) (hstart : s.phase ≠ .start)
    (hwiden : ¬(widens i = true ∧ s.phase = .widen)) (hsame : SameSamples i s (r.carrying s))
    (h : move i s = .next t) : MovesBy (Act.Fits i s) (move i) s r t := by
  by_cases hscan : scanning i s.phase = true
  · rw [move_of_scanning hscan] at h
    obtain ⟨act, hfits, hrun, hact⟩ := scanMove_movesBy (r := r) hb hb' hstart (fun u hu => scanStep_answers hsame hu)
      (scanEnd_acts i s) h
    exact ⟨act, hfits, hrun, (move_of_scanning (s := r.carrying s) hscan).trans hact⟩
  cases i with
  | edges | onewire | sync => simp [scanning, hstart] at hscan
  | spi3 | spi4 | i2c => exact absurd ⟨rfl, by simpa [scanning, hstart] using hscan⟩ hwiden
  | i2s => exact i2sMove_movesBy hb hb' hstart (by simpa [scanning] using hscan) hsame h
  | uart => exact uartMove_movesBy hstart hscan h

end MovesBy

end Sys2Proof.Machine
end

section
/-! What no operation writes (O22), and what it writes of OUT (O23). -/

namespace Sys2Proof.Machine

/-! ## What no operation writes -/

/-- The fields no operation writes (20_memory.md R41, R54, 60 R136), the others at their reset values. -/
def State.kept (s : State) : State :=
  { State.reset with
    cfg := s.cfg
    cmd := s.cmd
    len := s.len
    spNum := s.spNum
    spDen := s.spDen
    baud := s.baud
    ch0 := s.ch0
    ch1 := s.ch1
    ch2 := s.ch2
    ch3 := s.ch3
    ach0 := s.ach0
    op := s.op
    script := s.script
    hostData := s.hostData }

theorem Moved.kept {i : Instr} {s t : State} (h : Moved i s t) : t.kept = s.kept := by
  cases h with
  | going h => rw [h.frame]; rfl
  | @ended u r h =>
    have hfin : (u.finish r).kept = u.kept := by simp [State.kept]
    rw [hfin, h.frame]
    rfl

theorem exec_kept {i : Instr} {s t : State} (h : exec i s = .next t) : t.kept = s.kept :=
  runMoves_keeps (P := fun u => u.kept = s.kept) (fun _ _ _ hs hm => (move_moved hm).kept.trans hs) _ s t rfl
    (exec_eq_runMoves i s ▸ h)

/-- Settles O22: every micro-step keeps the fields, by `move_moved`. -/
theorem execFrame : Obligations.ExecFrame := by
  intro i s t h
  have hfield {α : Type} (f : State → α) : f t.kept = f s.kept := congrArg f (exec_kept h)
  exact ⟨hfield State.cmd, hfield State.len, hfield State.spNum, hfield State.spDen, hfield State.baud,
    hfield State.ch0, hfield State.ch1, hfield State.ch2, hfield State.ch3, hfield State.ach0, hfield State.op,
    hfield State.cfg, hfield State.script, hfield State.hostData⟩

/-! ## What an operation writes of OUT -/

theorem capacityOf_records {i : Instr} (h : unitOf i = 16) (s : State) : capacityOf i s = s.cfg.outCap.toNat := by
  cases i with
  | edges => cases h
  | onewire | spi3 | spi4 | i2c | sync | i2s | uart => rfl

theorem capacityOf_words {i : Instr} (h : unitOf i = 4) (s : State) : capacityOf i s = 4 * s.cfg.outCap.toNat := by
  cases i with
  | edges => rfl
  | onewire | spi3 | spi4 | i2c | sync | i2s | uart => cases h

theorem storeRead_widenRecord_other {m : Mem} {n j x : Nat} (hj : j < n) (hx : 16 * n ≤ x) :
    storeRead (widenRecord m n j) x = storeRead m x := by
  unfold widenRecord
  split
  · split
    · exact storeRead_writeWord_other _ _ (by omega)
    · rfl
  · rfl

/-- What a step that emits reaches: what its continuation makes of the records found room for, or an overflow. -/
theorem emitAll_reaches {P Q : State → Prop} {k : State → State}
    (hpush : ∀ s a, P s → s.Room → P (s.pushRecord a)) (hk : ∀ s, P s → Q (k s))
    (hfin : ∀ s, P s → Q (s.finish .outOverflow)) :
    ∀ (as : List Annotation) (s : State), P s → Q (State.emitAll as s k)
  | [], s, h => hk s h
  | a :: as, s, h => by
    by_cases hr : s.Room
    · rw [emitAll_room _ _ _ hr]
      exact emitAll_reaches hpush hk hfin as _ (hpush s a h hr)
    · rw [emitAll_full _ _ _ hr]
      exact hfin s h

/-- Since `s` operation `i` has changed no byte of OUT but those OUT_COUNT counts, which OUT can hold. -/
structure Contained (i : Instr) (s u : State) : Prop where
  cfg : u.cfg = s.cfg
  tainted : u.tainted = false
  capacity : u.outCount.toNat ≤ capacityOf i s
  out : ∀ a, unitOf i * u.outCount.toNat ≤ a → storeRead u.out a = storeRead s.out a

/-- The operation is past its first micro-step; EDGES has written fewer words than it has visited indices. -/
def State.Past (i : Instr) (u : State) : Prop :=
  u.status.busy = true → u.phase ≠ .start ∧ (unitOf i = 4 → u.outCount.toNat < u.w.i)

section Contained
variable {i : Instr} {s u : State}

theorem Contained.pushRecord (hunit : unitOf i = 16) (h : Contained i s u) (a : Annotation) (hr : u.Room) :
    Contained i s (u.pushRecord a) := by
  have hcount := pushRecord_count a hr
  have hroom : u.outCount.toNat < u.cfg.outCap.toNat := hr
  refine ⟨h.cfg, h.tainted, ?_, fun x hx => ?_⟩
  · rw [hcount, capacityOf_records hunit, ← h.cfg]
    exact hroom
  · rw [hunit, hcount] at hx
    rw [storeRead_pushRecord_other u a (.inr (by omega))]
    exact h.out x (by rw [hunit]; omega)

theorem Contained.withRegs (h : Contained i s u) (v : State) : Contained i s (u.withRegs v) :=
  ⟨h.cfg, h.tainted, h.capacity, h.out⟩

theorem Contained.finish (h : Contained i s u) (r : Result) : Contained i s (u.finish r) := by
  rw [State.finish_of_not_tainted h.tainted]
  exact ⟨h.cfg, h.tainted, h.capacity, h.out⟩

theorem State.Past.finish (r : Result) : (u.finish r).Past i := fun hb => by
  rw [State.finish_busy] at hb
  cases hb

/-- A word of EDGES with room; that fewer were written than N keeps OUT_COUNT from wrapping. -/
theorem Contained.word (hunit : unitOf i = 4) (h : Contained i s u) (v : Nat)
    (hr : u.outCount.toNat < 4 * u.cfg.outCap.toNat) (hn : u.outCount.toNat < u.n) :
    (u.outCount + 1).toNat = u.outCount.toNat + 1 ∧ Contained i s { u with
      out := writeWord u.out (4 * u.outCount.toNat) (BitVec.ofNat 32 v)
      outCount := u.outCount + 1 } := by
  have hn32 : u.n < 2 ^ 32 := u.op.n.isLt
  have hcount : (u.outCount + 1).toNat = u.outCount.toNat + 1 := by
    rw [BitVec.toNat_add]
    exact Nat.mod_eq_of_lt (by simp; omega)
  refine ⟨hcount, h.cfg, h.tainted, ?_, fun x hx => ?_⟩
  · show (u.outCount + 1).toNat ≤ _
    rw [hcount, capacityOf_words hunit, ← h.cfg]
    exact hr
  · have hx' : unitOf i * (u.outCount + 1).toNat ≤ x := hx
    rw [hunit, hcount] at hx'
    show storeRead (writeWord u.out _ _) x = _
    rw [storeRead_writeWord_other _ _ (by omega)]
    exact h.out x (by rw [hunit]; omega)

/-- An act writes only what it counts. -/
theorem Contained.run (h : Contained i s u) (hpast : u.Past i) (hb : u.status.busy = true) {act : Act}
    (hfits : act.Fits i u) : Contained i s (act.run u) ∧ (act.run u).Past i := by
  obtain ⟨-, hcount⟩ := hpast hb
  cases act with
  | ends r v => exact ⟨(h.withRegs v).finish r, .finish r⟩
  | emits as v =>
    obtain ⟨hunit, hphase, hindex⟩ := hfits
    cases as with
    | nil => exact ⟨h.withRegs v, fun _ => ⟨hphase, fun h4 => (hcount h4).trans (hindex h4)⟩⟩
    | cons a as =>
      have h16 := hunit nofun
      exact emitAll_reaches (k := (·.withRegs v)) (Q := fun t => Contained i s t ∧ t.Past i)
        (fun u a hu hr => hu.pushRecord h16 a hr)
        (fun u hu => ⟨hu.withRegs v, fun _ => ⟨hphase, fun h4 => by omega⟩⟩)
        (fun u hu => ⟨hu.finish _, .finish _⟩) _ u h
  | index v w =>
    obtain ⟨hunit, hphase, hn, hindex⟩ := hfits
    have hlt := hcount hunit
    by_cases hr : u.outCount.toNat < 4 * u.cfg.outCap.toNat
    · obtain ⟨hone, hword⟩ := h.word hunit v hr (hlt.trans hn)
      simp only [Act.run, emitIndex_room _ _ hr]
      refine ⟨hword.withRegs w, fun _ => ⟨hphase, fun _ => ?_⟩⟩
      show (u.outCount + 1).toNat < w.w.i
      omega
    · simp only [Act.run, emitIndex_full _ _ hr]
      exact ⟨h.finish _, .finish _⟩

theorem unitOf_of_widens (hi : widens i = true) : unitOf i = 16 := by
  cases i with
  | spi3 | spi4 | i2c => rfl
  | edges | onewire | sync | i2s | uart => cases hi

/-- The post-pass writes only records that are counted (47_postprocess.md R130). -/
theorem Contained.widenMove (hunit : unitOf i = 16) (h : Contained i s u) (hpast : u.Past i) :
    Contained i s (widenMove u) ∧ (Machine.widenMove u).Past i := by
  by_cases hj : u.w.j < u.outCount.toNat
  · rw [widenMove_record hj]
    refine ⟨⟨h.cfg, h.tainted, h.capacity, fun x hx => ?_⟩, fun hb => ⟨(hpast hb).1, fun h4 => by omega⟩⟩
    have hx' : unitOf i * u.outCount.toNat ≤ x := hx
    show storeRead (widenRecord u.out _ _) x = _
    rw [storeRead_widenRecord_other hj (hunit ▸ hx')]
    exact h.out x hx
  · rw [widenMove_end (Nat.le_of_not_lt hj)]
    exact ⟨h.finish _, .finish _⟩

theorem Contained.move (h : Contained i s u) (hpast : u.Past i) (hb : u.status.busy = true) {t : State}
    (hm : move i u = .next t) : Contained i s t ∧ t.Past i := by
  obtain ⟨hstart, -⟩ := hpast hb
  by_cases hwiden : widens i = true ∧ u.phase = .widen
  · cases (move_of_widen hwiden.1 hwiden.2).symm.trans hm
    exact h.widenMove (unitOf_of_widens hwiden.1) hpast
  · obtain ⟨act, hfits, rfl, -⟩ := move_movesBy (r := u) hb hb hstart hwiden
      ⟨rfl, fun _ _ _ _ => rfl, fun _ _ _ => rfl⟩ hm
    exact h.run hpast hb hfits

end Contained

/-- A started operation takes its first micro-step, then the others. -/
theorem exec_started {i : Instr} {s t : State} (hs : s.Started) (h : exec i s = .next t) :
    ∃ fuel u, startMove i (enterOf i) s = .next u ∧ runMoves (move i) fuel u = .next t := by
  obtain ⟨fuel, hfuel⟩ : ∃ fuel, s.stepBound = fuel + 1 := ⟨_, rfl⟩
  rw [exec_eq_runMoves, hfuel] at h
  simp only [runMoves, hs.1, if_true, move_of_start i hs.2] at h
  split at h
  · exact ⟨fuel, _, ‹_›, h⟩
  · cases h
  · cases h

/-- The first micro-step writes nothing to OUT, and leaves OUT_COUNT at 0 (60 R136). -/
theorem startMove_contained {i : Instr} {s u : State} (ht : s.tainted = false)
    (h : startMove i (enterOf i) s = .next u) : Contained i s u ∧ u.Past i := by
  have hclear : Contained i s s.clearOutputs := ⟨rfl, ht, Nat.zero_le _, fun _ _ => rfl⟩
  obtain ⟨-, -, rfl⟩ | ⟨-, rfl⟩ := startMove_next h
  · have hfirst : Contained i s { s.clearOutputs with w := Work.initial, phase := .scan } :=
      ⟨hclear.cfg, hclear.tainted, hclear.capacity, hclear.out⟩
    cases i with
    | edges => exact ⟨hfirst, fun _ => ⟨nofun, fun _ => Nat.one_pos⟩⟩
    | onewire | spi3 | spi4 | i2c | sync | i2s => exact ⟨hfirst, fun _ => ⟨nofun, nofun⟩⟩
    | uart => exact ⟨⟨hclear.cfg, hclear.tainted, hclear.capacity, hclear.out⟩, fun _ => ⟨nofun, nofun⟩⟩
  · exact ⟨hclear.finish _, .finish _⟩

/-- Settles O23: every micro-step keeps `Contained`. -/
theorem execWritesOnlyItsRecords : Obligations.ExecWritesOnlyItsRecords := by
  intro i s t hs ht h
  obtain ⟨fuel, u, hfirst, hrun⟩ := exec_started hs h
  obtain ⟨hend, -⟩ := runMoves_keeps (P := fun u => Contained i s u ∧ u.Past i)
    (fun _ _ hb ⟨hu, hpast⟩ hm => hu.move hpast hb hm) fuel u t (startMove_contained ht hfirst) hrun
  exact ⟨hend.capacity, hend.out⟩

end Sys2Proof.Machine
end

section
/-! Two runs on the same samples give the same results (O27). -/

namespace Sys2Proof.Machine

/-! ## Writes to two memories -/

/-- A word written to two memories that agree at `x`, or where it covers `x`, leaves them agreeing at `x`. -/
theorem storeRead_writeWord_congr {m m' : Mem} {a x : Nat} (v : Word)
    (h : ¬(a ≤ x ∧ x < a + 4) → storeRead m x = storeRead m' x) :
    storeRead (writeWord m a v) x = storeRead (writeWord m' a v) x := by
  by_cases hx : a ≤ x ∧ x < a + 4
  · obtain ⟨c, rfl⟩ := Nat.exists_eq_add_of_le hx.1
    rw [storeRead_writeWord_same _ _ _ _ (by omega), storeRead_writeWord_same _ _ _ _ (by omega)]
  · rw [storeRead_writeWord_other _ _ (by omega), storeRead_writeWord_other _ _ (by omega), h hx]

theorem storeRead_pushRecord_congr {s s' : State} {x : Nat} (a : Annotation) (hcount : s'.outCount = s.outCount)
    (h : x < 16 * s.outCount.toNat → storeRead s.out x = storeRead s'.out x) (hx : x < 16 * s.outCount.toNat + 16) :
    storeRead (s.pushRecord a).out x = storeRead (s'.pushRecord a).out x := by
  simp only [State.pushRecord, hcount]
  exact storeRead_writeWord_congr _ fun _ => storeRead_writeWord_congr _ fun _ => storeRead_writeWord_congr _ fun _ =>
    storeRead_writeWord_congr _ fun _ => h (by omega)

section Widen
variable {m m' : Mem} {n : Nat}

/-- The two memories hold the same records 0 to n - 1. -/
def SameRecords (m m' : Mem) (n : Nat) : Prop := ∀ x, x < 16 * n → storeRead m x = storeRead m' x

theorem SameRecords.fields (h : SameRecords m m' n) {k : Nat} (hk : k < n) :
    recStart m k = recStart m' k ∧ recStop m k = recStop m' k ∧ recLabel m k = recLabel m' k :=
  ⟨congrArg BitVec.toNat (wordAt_congr fun j hj => h _ (by omega)),
    congrArg BitVec.toNat (wordAt_congr fun j hj => h _ (by omega)), byteAt_congr (h _ (by omega))⟩

theorem SameRecords.nextStop (h : SameRecords m m' n) (j : Nat) : nextStop m n j = nextStop m' n j :=
  List.find?_congr fun k hk => by
    rw [(h.fields (by have := List.mem_range'_1.1 hk; omega)).2.2]

theorem nextStop_lt {j k : Nat} (h : nextStop m n j = some k) : k < n := by
  have := List.mem_range'_1.1 (List.mem_of_find?_eq_some h)
  omega

theorem SameRecords.widenRecord (h : SameRecords m m' n) {j : Nat} (hj : j < n) :
    SameRecords (widenRecord m n j) (widenRecord m' n j) n := by
  obtain ⟨hstart, hstop, hlabel⟩ := h.fields hj
  unfold Machine.widenRecord
  rw [← hstart, ← hstop, ← hlabel, ← h.nextStop j]
  split
  · cases hk : Machine.nextStop m n j with
    | none => exact h
    | some k =>
      have hprev : recStart m (j - 1) = recStart m' (j - 1) := (h.fields (by omega)).1
      obtain ⟨hkstart, hkstop, -⟩ := h.fields (nextStop_lt hk)
      simp only [widenedStart, ← hstart, ← hprev, ← hkstart, ← hkstop]
      exact fun x hx => storeRead_writeWord_congr _ fun _ => h x hx
  · exact h

end Widen

/-! ## Two runs -/

/-- Two operations stand at the same point with the same results: what counts of OUT, and all that a micro-step reads
but the samples. -/
structure SameRun (i : Instr) (s s' : State) : Prop where
  carries : s' = s'.carrying s
  outCount : s'.outCount = s.outCount
  tainted : s.tainted = false ∧ s'.tainted = false
  status : s.status.busy = true ∧ s'.status.busy = true ∨ s'.status = s.status
  out : ∀ x, x < unitOf i * s.outCount.toNat → storeRead s.out x = storeRead s'.out x

section SameRun
variable {i : Instr} {s s' : State}

/-- Whatever OUT and OUT_COUNT become, one state carries the other. -/
theorem carrying_withOut (h : s' = s'.carrying s) (out out' : Mem) (count count' : Word) :
    { s' with out := out', outCount := count' } =
      ({ s' with out := out', outCount := count' }).carrying { s with out := out, outCount := count } :=
  congrArg (fun u : State => { u with out := out', outCount := count' }) h

theorem SameRun.withRegs (h : SameRun i s s') (u : State) : SameRun i (s.withRegs u) (s'.withRegs u) :=
  ⟨by rw [h.carries]; rfl, h.outCount, h.tainted, h.status, h.out⟩

theorem SameRun.finish (h : SameRun i s s') (r : Result) : SameRun i (s.finish r) (s'.finish r) := by
  rw [State.finish_of_not_tainted h.tainted.1, State.finish_of_not_tainted h.tainted.2]
  exact ⟨by rw [h.carries]; rfl, h.outCount, h.tainted, .inr rfl, h.out⟩

/-- One more count of OUT_COUNT, whether or not it wraps. -/
theorem count_le (c : Word) : (c + 1).toNat ≤ c.toNat + 1 := by
  rw [BitVec.toNat_add]
  exact Nat.mod_le ..

theorem SameRun.pushRecord (hunit : unitOf i = 16) (h : SameRun i s s') (a : Annotation) :
    SameRun i (s.pushRecord a) (s'.pushRecord a) := by
  refine ⟨carrying_withOut h.carries _ _ _ _, congrArg (· + 1) h.outCount, h.tainted, h.status, fun x hx => ?_⟩
  have hcount := count_le s.outCount
  have hx' : x < unitOf i * (s.outCount + 1).toNat := hx
  rw [hunit] at hx'
  exact storeRead_pushRecord_congr a h.outCount (fun hlt => h.out x (by rwa [hunit])) (by omega)

theorem SameRun.word (hunit : unitOf i = 4) (h : SameRun i s s') (v : Nat) :
    SameRun i
      { s with out := writeWord s.out (4 * s.outCount.toNat) (BitVec.ofNat 32 v), outCount := s.outCount + 1 }
      { s' with out := writeWord s'.out (4 * s'.outCount.toNat) (BitVec.ofNat 32 v), outCount := s'.outCount + 1 } := by
  refine ⟨carrying_withOut h.carries _ _ _ _, congrArg (· + 1) h.outCount, h.tainted, h.status, fun x hx => ?_⟩
  have hcount := count_le s.outCount
  have hx' : x < unitOf i * (s.outCount + 1).toNat := hx
  rw [hunit] at hx'
  show storeRead (writeWord s.out _ _) x = storeRead (writeWord s'.out _ _) x
  rw [h.outCount]
  exact storeRead_writeWord_congr _ fun _ => h.out x (by rw [hunit]; omega)

theorem SameRun.carried (h : SameRun i s s') : s'.cfg = s.cfg ∧ s'.phase = s.phase ∧ s'.w = s.w := by
  rw [h.carries]
  exact ⟨rfl, rfl, rfl⟩

theorem SameRun.room (h : SameRun i s s') : s'.Room ↔ s.Room := by
  rw [State.Room, State.Room, h.outCount, h.carried.1]

theorem SameRun.emitAll (hunit : unitOf i = 16) (u : State) : ∀ (as : List Annotation) {s s' : State}, SameRun i s s' →
    SameRun i (State.emitAll as s (·.withRegs u)) (State.emitAll as s' (·.withRegs u))
  | [], _, _, h => h.withRegs u
  | a :: as, s, s', h => by
    by_cases hr : s.Room
    · rw [emitAll_room _ _ _ hr, emitAll_room _ _ _ (h.room.2 hr)]
      exact SameRun.emitAll hunit u as (h.pushRecord hunit a)
    · rw [emitAll_full _ _ _ hr, emitAll_full _ _ _ (mt h.room.1 hr)]
      exact h.finish _

/-- The same act on both states. -/
theorem SameRun.run (h : SameRun i s s') {act : Act} (hfits : act.Fits i s) : SameRun i (act.run s) (act.run s') := by
  cases act with
  | ends r u => exact (h.withRegs u).finish r
  | emits as u =>
    cases as with
    | nil => exact h.withRegs u
    | cons a as => exact SameRun.emitAll (hfits.1 nofun) u (a :: as) h
  | index v u =>
    simp only [Act.run]
    by_cases hr : s.outCount.toNat < 4 * s.cfg.outCap.toNat
    · have hr' : s'.outCount.toNat < 4 * s'.cfg.outCap.toNat := by rwa [h.outCount, h.carried.1]
      rw [emitIndex_room _ _ hr, emitIndex_room _ _ hr']
      exact (h.word hfits.1 v).withRegs u
    · have hr' : ¬ s'.outCount.toNat < 4 * s'.cfg.outCap.toNat := by rwa [h.outCount, h.carried.1]
      rw [emitIndex_full _ _ hr, emitIndex_full _ _ hr']
      exact h.finish _

theorem SameRun.widenMove (hunit : unitOf i = 16) (h : SameRun i s s') : SameRun i (widenMove s) (widenMove s') := by
  have hrecords : SameRecords s.out s'.out s.outCount.toNat := fun x hx => h.out x (hunit ▸ hx)
  obtain ⟨-, -, hw⟩ := h.carried
  by_cases hj : s.w.j < s.outCount.toNat
  · have hj' : s'.w.j < s'.outCount.toNat := by rwa [hw, h.outCount]
    rw [widenMove_record hj, widenMove_record hj']
    refine ⟨by rw [h.carries]; rfl, h.outCount, h.tainted, h.status, fun x hx => ?_⟩
    show storeRead (widenRecord s.out _ _) x = storeRead (widenRecord s'.out _ _) x
    rw [hw, h.outCount]
    exact hrecords.widenRecord hj x (hunit ▸ hx)
  · have hj' : ¬ s'.w.j < s'.outCount.toNat := by rwa [hw, h.outCount]
    rw [widenMove_end (Nat.le_of_not_lt hj), widenMove_end (Nat.le_of_not_lt hj')]
    exact h.finish _

/-- The same samples, as long as both states keep theirs. -/
theorem SameSamples.of_kept {t t' : State} (h : SameSamples i s s') (ht : t.kept = s.kept) (ht' : t'.kept = s'.kept) :
    SameSamples i t t' := by
  have hfield {α : Type} (f : State → α) : f t.kept = f s.kept := congrArg f ht
  have hfield' {α : Type} (f : State → α) : f t'.kept = f s'.kept := congrArg f ht'
  have hn : t.n = s.n := hfield State.n
  have hchan (k : BitVec 2) : t.chan k = s.chan k := hfield (·.chan k)
  have hchan' (k : BitVec 2) : t'.chan k = s'.chan k := hfield' (·.chan k)
  have hach (j : Nat) : t.ach j = s.ach j := hfield (·.ach j)
  have hach' (j : Nat) : t'.ach j = s'.ach j := hfield' (·.ach j)
  refine ⟨(hfield' State.n).trans (h.n.trans hn.symm), fun k hk j hj => ?_, fun ha j hj => ?_⟩
  · rw [hchan, hchan', h.slots k hk j (hn ▸ hj)]
  · rw [hach, hach', h.analog ha j (hn ▸ hj)]

/-- One micro-step of both operations. -/
theorem SameRun.step {t : State} (h : SameRun i s s') (hsame : SameSamples i s s') (hb : s.status.busy = true)
    (hstart : s.phase ≠ .start) (hm : move i s = .next t) :
    ∃ t', move i s' = .next t' ∧ SameRun i t t' ∧ SameSamples i t t' := by
  have hb' : s'.status.busy = true := h.status.elim And.right fun heq => heq ▸ hb
  have hstep : ∃ t', move i s' = .next t' ∧ SameRun i t t' := by
    by_cases hwiden : widens i = true ∧ s.phase = .widen
    · have hphase' : s'.phase = .widen := h.carried.2.1.trans hwiden.2
      cases (move_of_widen hwiden.1 hwiden.2).symm.trans hm
      exact ⟨_, move_of_widen hwiden.1 hphase', h.widenMove (unitOf_of_widens hwiden.1)⟩
    · obtain ⟨act, hfits, rfl, hact⟩ := move_movesBy hb hb' hstart hwiden (h.carries ▸ hsame) hm
      rw [← h.carries] at hact
      exact ⟨_, hact, h.run hfits⟩
  obtain ⟨t', hm', hrun⟩ := hstep
  exact ⟨t', hm', hrun, hsame.of_kept (move_moved hm).kept (move_moved hm').kept⟩

theorem SameRun.run_moves {s₀ : State} : ∀ (fuel : Nat) {s s' t : State}, SameRun i s s' → SameSamples i s s' →
    Contained i s₀ s → s.Past i → runMoves (move i) fuel s = .next t →
    ∃ t', runMoves (move i) fuel s' = .next t' ∧ SameRun i t t'
  | 0, s, s', t, h, _, _, _, hrun => by cases hrun; exact ⟨s', rfl, h⟩
  | fuel + 1, s, s', t, h, hsame, hcont, hpast, hrun => by
    cases hb : s.status.busy with
    | false =>
      have hb' : s'.status.busy = false := h.status.elim (fun ⟨hbusy, _⟩ => absurd (hb.symm.trans hbusy) nofun)
        fun heq => heq ▸ hb
      rw [runMoves_of_idle _ _ hb] at hrun
      cases hrun
      exact ⟨s', runMoves_of_idle _ _ hb', h⟩
    | true =>
      have hb' : s'.status.busy = true := h.status.elim And.right fun heq => heq ▸ hb
      cases hm : move i s with
      | next u =>
        obtain ⟨u', hm', hu, husame⟩ := h.step hsame hb (hpast hb).1 hm
        obtain ⟨hcont', hpast'⟩ := hcont.move hpast hb hm
        rw [runMoves_succ hb hm] at hrun
        rw [runMoves_succ hb' hm']
        exact SameRun.run_moves fuel hu husame hcont' hpast' hrun
      | fault f => simp [runMoves, hb, hm] at hrun
      | refused r => simp [runMoves, hb, hm] at hrun

end SameRun

/-- The threshold is found from the samples alone (46_uart.md R114). -/
theorem analogSamples_eq {i : Instr} {s s' : State} (h : SameSamples i s s') (ha : opReadsAnalog i = true) :
    analogSamples s' = analogSamples s := by
  unfold analogSamples
  rw [h.n]
  exact List.filterMap_congr fun j hj => h.analog ha j (List.mem_range.1 hj)

theorem eq_carrying {s s' : State} (hcfg : s.cfg = s'.cfg) (hop : s.op = s'.op) (hnum : s.bpNum = s'.bpNum)
    (hden : s.bpDen = s'.bpDen) (hoff : s.uartOffset = s'.uartOffset) (hlen : s.uartBslen = s'.uartBslen)
    (hphase : s.phase = s'.phase) (hw : s.w = s'.w) : s' = s'.carrying s := by
  simp only [State.carrying, State.withRegs, hcfg, hop, hnum, hden, hoff, hlen, hphase, hw]

theorem firstState_sameRun {i : Instr} {s s' : State} (hs : s.Ready i) (hs' : s'.Ready i)
    (ht : s.tainted = false) (ht' : s'.tainted = false) (hop : s.op = s'.op) (hcfg : s.cfg = s'.cfg)
    (hsame : SameSamples i s s') : SameRun i (firstState i s) (firstState i s') := by
  have hbusy : s.status.busy = true ∧ s'.status.busy = true := ⟨hs.1.1, hs'.1.1⟩
  cases i with
  | edges | onewire | spi3 | spi4 | i2c | sync | i2s =>
    exact ⟨eq_carrying hcfg hop rfl rfl rfl rfl rfl rfl, rfl, ⟨ht, ht'⟩, .inl hbusy, nofun⟩
  | uart dbits par stop2 auto analog =>
    refine ⟨eq_carrying hcfg hop rfl rfl rfl rfl rfl ?_, rfl, ⟨ht, ht'⟩, .inl hbusy, nofun⟩
    cases analog with
    | false => rfl
    | true =>
      have htheta := congrArg thresholdOf (analogSamples_eq hsame rfl)
      exact congrArg (fun theta => { Work.initial with i := 0, theta := theta }) htheta.symm

/-- A ready operation that reaches its end does so from its first state, with any fuel from some amount on. -/
theorem exec_ready {i : Instr} {s t : State} (hs : s.Ready i) (h : exec i s = .next t) :
    ∃ fuel, ∀ fuel', fuel ≤ fuel' → runMoves (move i) fuel' (firstState i s) = .next t := by
  obtain ⟨t', ht', hidle, -⟩ := everyOperationFinishes i s hs
  cases h.symm.trans ht'
  obtain ⟨fuel, u, hu, hrun⟩ := exec_started hs.1 h
  cases ((move_of_start i hs.1.2).symm.trans (move_of_ready hs)).symm.trans hu
  exact ⟨fuel, fun _ hle => runMoves_mono hrun hidle hle⟩

/-- Settles O27: the two runs take the same acts from `firstState` on. -/
theorem resultsDependOnSamplesAlone : Obligations.ResultsDependOnSamplesAlone := by
  intro i s s' t t' hs hs' ht ht' hop hcfg hslots hanalog h h'
  have hsame : SameSamples i s s' := ⟨congrArg (·.n.toNat) hop.symm, fun k hk j hj => (hslots k hk j hj).symm,
    fun ha j hj => (hanalog ha j hj).symm⟩
  obtain ⟨fuel, hrun⟩ := exec_ready hs h
  obtain ⟨fuel', hrun'⟩ := exec_ready hs' h'
  have hfirst := (move_of_start i hs.1.2).symm.trans (move_of_ready hs)
  have hfirst' := (move_of_start i hs'.1.2).symm.trans (move_of_ready hs')
  obtain ⟨hcont, hpast⟩ := startMove_contained ht hfirst
  obtain ⟨u, hu, hend⟩ := (firstState_sameRun hs hs' ht ht' hop hcfg hsame).run_moves (fuel + fuel')
    (hsame.of_kept (move_moved (move_of_ready hs)).kept (move_moved (move_of_ready hs')).kept) hcont hpast
    (hrun _ (Nat.le_add_right ..))
  cases hu.symm.trans (hrun' _ (Nat.le_add_left ..))
  obtain ⟨t₁, ht₁, hidle, -⟩ := everyOperationFinishes i s hs
  cases h.symm.trans ht₁
  have hstatus := hend.status.resolve_left fun ⟨hbusy, _⟩ => absurd (hidle.symm.trans hbusy) nofun
  have hcarries := hend.carries
  refine ⟨hstatus.symm, hend.outCount.symm, ?_, ?_, ?_, ?_, hend.out⟩ <;> (rw [hcarries]; rfl)

end Sys2Proof.Machine
end

section
/-! The records of every operation are in order (O26). -/

namespace Sys2Proof.Machine

/-! ## Emitting in order -/

/-- The records so far are in order, and none starts after `b`. -/
structure OrderedTo (b : Nat) (s : State) : Prop where
  ordered : Ordered s.out s.outCount.toNat
  le : ∀ k, k < s.outCount.toNat → recStart s.out k ≤ b

/-- The annotations are in order from `b` on, the last one starting at `b'`, and none ends after `top`. -/
def Rising (top : Nat) : Nat → List Annotation → Nat → Prop
  | b, [], b' => b = b'
  | b, a :: as, b' => b ≤ a.start ∧ a.start ≤ a.stop ∧ a.stop ≤ top ∧ Rising top a.start as b'

theorem recStart_pushRecord (s : State) (a : Annotation) {k : Nat} (hk : k ≤ s.outCount.toNat) :
    recStart (s.pushRecord a).out k =
      if k = s.outCount.toNat then a.start % 2 ^ 32 else recStart s.out k := by
  split
  · next h =>
    rw [recStart, h, wordAt_pushRecord_start, BitVec.toNat_ofNat]
  · rw [recStart, wordAt_pushRecord_other _ _ (by omega), recStart]

theorem recStop_pushRecord (s : State) (a : Annotation) {k : Nat} (hk : k ≤ s.outCount.toNat) :
    recStop (s.pushRecord a).out k =
      if k = s.outCount.toNat then a.stop % 2 ^ 32 else recStop s.out k := by
  split
  · next h =>
    rw [recStop, h, wordAt_pushRecord_stop, BitVec.toNat_ofNat]
  · rw [recStop, wordAt_pushRecord_other _ _ (by omega), recStop]

/-- A record that starts no earlier than those before it (20_memory.md R47). -/
theorem OrderedTo.pushRecord {b : Nat} {s : State} {a : Annotation} (h : OrderedTo b s) (hr : s.Room)
    (hb : b ≤ a.start) (hspan : a.start ≤ a.stop) (hstop : a.stop < 2 ^ 32) : OrderedTo a.start (s.pushRecord a) := by
  obtain ⟨⟨hin, hnext⟩, hle⟩ := h
  have hcount := pushRecord_count a hr
  have hstart32 : a.start % 2 ^ 32 = a.start := Nat.mod_eq_of_lt (hspan.trans_lt hstop)
  have hstop32 : a.stop % 2 ^ 32 = a.stop := Nat.mod_eq_of_lt hstop
  refine ⟨⟨fun k hk => ?_, fun k hk => ?_⟩, fun k hk => ?_⟩
  · rw [recStart_pushRecord s a (by omega), recStop_pushRecord s a (by omega), hstart32, hstop32]
    split
    · exact hspan
    · exact hin k (by omega)
  · rw [recStart_pushRecord s a (by omega), recStart_pushRecord s a (by omega), hstart32, if_neg (by omega)]
    split
    · exact (hle k (by omega)).trans hb
    · exact hnext k (by omega)
  · rw [recStart_pushRecord s a (by omega), hstart32]
    split
    · exact le_rfl
    · exact (hle k (by omega)).trans hb

/-- Between micro-steps the records are in order, and while the operation runs `R` holds of a bound on their STARTs. -/
structure InOrder (R : Nat → State → Prop) (s : State) : Prop where
  tainted : s.tainted = false
  ordered : Ordered s.out s.outCount.toNat
  running : s.status.busy = true → ∃ b, OrderedTo b s ∧ R b s

section InOrder
variable {R : Nat → State → Prop} {s : State}

theorem InOrder.finish (ht : s.tainted = false) (h : Ordered s.out s.outCount.toNat) (r : Result) :
    InOrder R (s.finish r) := by
  rw [State.finish_of_not_tainted ht]
  exact ⟨ht, h, nofun⟩

theorem InOrder.goes {b : Nat} (ht : s.tainted = false) (h : OrderedTo b s) (hR : R b s) : InOrder R s :=
  ⟨ht, h.ordered, fun _ => ⟨b, h, hR⟩⟩

/-- Emitting in order, with or without room for all. -/
theorem InOrder.emitAll {top b' : Nat} {u : State} (htop : top < 2 ^ 32) : ∀ {as : List Annotation} {b : Nat} {s : State},
    s.tainted = false → OrderedTo b s → Rising top b as b' →
    (∀ out count, R b' (({ s with out := out, outCount := count }).withRegs u)) →
    InOrder R (State.emitAll as s (·.withRegs u))
  | [], b, s, ht, h, hrise, hR => by
    cases hrise
    exact .goes (s := s.withRegs u) ht ⟨h.ordered, h.le⟩ (hR s.out s.outCount)
  | a :: as, b, s, ht, h, ⟨hb, hspan, hstop, hrise⟩, hR => by
    by_cases hr : s.Room
    · rw [emitAll_room _ _ _ hr]
      exact InOrder.emitAll htop (s := s.pushRecord a) ht (h.pushRecord hr hb hspan (hstop.trans_lt htop)) hrise hR
    · rw [emitAll_full _ _ _ hr]
      exact .finish ht h.ordered _

/-- Emitting one record in order. -/
theorem InOrder.emitThen {b : Nat} {a : Annotation} {w : Work} (ht : s.tainted = false) (h : OrderedTo b s)
    (hb : b ≤ a.start) (hspan : a.start ≤ a.stop) (hstop : a.stop < 2 ^ 32)
    (hR : ∀ out count, R a.start { s with out := out, outCount := count, w := w }) : InOrder R (s.emitThen a w) :=
  InOrder.emitAll (as := [a]) (u := { s with w := w }) hstop ht h ⟨hb, hspan, le_rfl, rfl⟩ hR

end InOrder

/-- An operation whose every micro-step emits in order writes records in order. -/
theorem exec_ordered {i : Instr} {s t : State} (R : Nat → State → Prop) (hs : s.Ready i) (ht : s.tainted = false)
    (hfirst : R 0 (firstState i s))
    (hstep : ∀ b u v, u.status.busy = true → u.tainted = false → u.op = s.op → OrderedTo b u → R b u →
      move i u = .next v → InOrder R v)
    (h : exec i s = .next t) : Ordered t.out t.outCount.toNat := by
  obtain ⟨fuel, hrun⟩ := exec_ready hs h
  have hzero : (firstState i s).outCount.toNat = 0 := by cases i <;> rfl
  have htaint : (firstState i s).tainted = false := by cases i <;> exact ht
  have hfirst' : InOrder R (firstState i s) :=
    .goes htaint ⟨⟨fun k hk => absurd hk (by omega), fun k hk => absurd hk (by omega)⟩,
      fun k hk => absurd hk (by omega)⟩ hfirst
  have hop : (firstState i s).op = s.op := (move_moved (move_of_ready hs)).op_cfg.1
  exact (runMoves_keeps (P := fun u => InOrder R u ∧ u.op = s.op) (fun u v hb ⟨hu, hop⟩ hm => by
    obtain ⟨b, hord, hR⟩ := hu.running hb
    exact ⟨hstep b u v hb hu.tainted hop hord hR hm, (move_moved hm).op_cfg.1.trans hop⟩)
    fuel _ t ⟨hfirst', hop⟩ (hrun fuel le_rfl)).1.ordered

/-! ## The decoders of one scan -/

theorem Floor.next {i : Instr} {b : Nat} {w : Work} (h : Floor i b w) : Floor i b { w with i := w.i + 1 } := by
  obtain ⟨hb, hspan, hwait⟩ := h
  cases i with
  | sync cpha =>
    refine ⟨Nat.le_succ_of_le hb, le_rfl, fun g hg => ?_⟩
    exact ⟨(hwait g hg).1, Nat.le_succ_of_le (hwait g hg).2⟩
  | edges | onewire | spi3 | spi4 | i2c | i2s | uart => exact ⟨hb, Nat.le_succ_of_le hspan, hwait⟩

/-- Where a decoder of one scan stands: in the scan, or in the post-pass. -/
def ScanOrder (i : Instr) (b : Nat) (s : State) : Prop :=
  s.phase = .scan ∧ Floor i b s.w ∨ widens i = true ∧ s.phase = .widen

theorem n_lt (s : State) : s.n < 2 ^ 32 := s.op.n.isLt

theorem scanOrder_step {i : Instr} (hi : oneScan i = true) (hunit : unitOf i = 16) {b : Nat} {u v : State}
    (hb : u.status.busy = true) (ht : u.tainted = false) (hord : OrderedTo b u) (hphase : u.phase = .scan)
    (hfloor : Floor i b u.w) (hm : move i u = .next v) : InOrder (ScanOrder i) v := by
  rw [move_of_scanning (hphase ▸ scanning_of_oneScan hi)] at hm
  obtain ⟨hn, x, hx, rfl⟩ | ⟨-, rfl⟩ := scanMove_next hm
  · obtain ⟨act, horderly, rfl, -⟩ := scanStep_answers (r := u) ⟨rfl, fun _ _ _ _ => rfl, fun _ _ _ => rfl⟩ hx
    rw [run_advance act hb]
    have h32 := n_lt u
    cases horderly with
    | quiet hi h => exact .goes ht ⟨hord.ordered, hord.le⟩ (.inl ⟨hphase, (h b hfloor).next⟩)
    | record _ hi h =>
      obtain ⟨hba, hspan, hstop, hfloor'⟩ := h b hfloor
      exact .emitThen ht hord hba hspan (by omega) fun _ _ => .inl ⟨hphase, hfloor'.next⟩
    | word hfour => omega
  · obtain hend | ⟨hw, hend⟩ := scanEnd_of_oneScan hi u
    · exact hend ▸ .finish ht hord.ordered _
    · exact hend ▸ .goes ht ⟨hord.ordered, hord.le⟩ (.inr ⟨hw, rfl⟩)

theorem widen_step_inOrder {i : Instr} {b : Nat} {u v : State} (ht : u.tainted = false) (hord : OrderedTo b u)
    (hw : widens i = true) (hphase : u.phase = .widen) (hm : move i u = .next v) : InOrder (ScanOrder i) v := by
  cases (move_of_widen hw hphase).symm.trans hm
  by_cases hj : u.w.j < u.outCount.toNat
  · rw [widenMove_record hj]
    obtain ⟨hord', -, hback⟩ := widenRecord_keeps hord.ordered hj
    exact .goes ht ⟨hord', fun k hk => (hback k).trans (hord.le k hk)⟩ (.inr ⟨hw, hphase⟩)
  · rw [widenMove_end (Nat.le_of_not_lt hj)]
    exact .finish ht hord.ordered _

theorem floor_initial (i : Instr) : Floor i 0 Work.initial := by
  cases i with
  | sync => exact ⟨Nat.zero_le _, le_rfl, nofun⟩
  | edges | onewire | spi3 | spi4 | i2c | i2s | uart => exact ⟨Nat.zero_le _, Nat.zero_le _, nofun⟩

theorem exec_oneScan_ordered {i : Instr} {s t : State} (hi : oneScan i = true) (hunit : unitOf i = 16)
    (hs : s.Ready i) (ht : s.tainted = false) (h : exec i s = .next t) : Ordered t.out t.outCount.toNat := by
  refine exec_ordered (ScanOrder i) hs ht ?_ (fun b u v hb ht _ hord hR hm => ?_) h
  · rw [firstState_of_oneScan hi]
    exact .inl ⟨rfl, floor_initial i⟩
  · obtain ⟨hphase, hfloor⟩ | ⟨hw, hphase⟩ := hR
    · exact scanOrder_step hi hunit hb ht hord hphase hfloor hm
    · exact widen_step_inOrder ht hord hw hphase hm

end Sys2Proof.Machine
end

section
/-! The records of I2S and UART are in order (for O26). -/

namespace Sys2Proof.Machine

/-! ## I2S -/

section I2s
variable {bpw : BitVec 6} {delay : BitVec 4} {order : BitOrder} {bedge : ClockEdge} {s t : State} {f g : Nat}

/-- A frame half has no word, or one over its span (45_i2s.md R111, R112). -/
theorem i2sWord_cases (h : i2sWord bpw delay order f g s = .ok t) :
    t = { s with w := { s.w with k := s.w.k + 1 } } ∨
    ∃ (a : Annotation) (acc : Word), a.start = f ∧ a.stop = g ∧
      t = s.emitThen a { s.w with wordAcc := acc, k := s.w.k + 1 } := by
  cases hwin : i2sWindow s.w.be delay.toNat bpw.toNat f g with
  | none => cases (i2sWord_none hwin).symm.trans h; exact .inl rfl
  | some win =>
    have h' := h
    simp only [i2sWord, hwin] at h'
    obtain ⟨bs, hbs, h'⟩ := ok_of_bind h'
    obtain ⟨lr, hlr, -⟩ := ok_of_bind h'
    cases (i2sWord_eq hwin hbs hlr).symm.trans h
    exact .inr ⟨_, _, rfl, rfl, rfl⟩

/-- Where I2S stands: the frame-clock edges rise, and from edge k on none lies before `b` (45_i2s.md R110). -/
structure I2sOrder (b : Nat) (s : State) : Prop where
  rising : s.w.fe.Pairwise (· ≤ ·)
  lt : ∀ e ∈ s.w.fe, e < s.n
  floor : s.phase = .scan ∧ b = 0 ∧ (∀ e ∈ s.w.fe, e ≤ s.w.i) ∨ s.phase = .bitEdges ∧ b = 0 ∨
    s.phase = .words ∧ ∀ e ∈ s.w.fe.drop s.w.k, b ≤ e

theorem i2s_scan_inOrder {v : State} (hb : s.status.busy = true) (ht : s.tainted = false) (hord : OrderedTo 0 s)
    (hphase : s.phase = .scan) (hrising : s.w.fe.Pairwise (· ≤ ·)) (hlt : ∀ e ∈ s.w.fe, e < s.n)
    (hle : ∀ e ∈ s.w.fe, e ≤ s.w.i) (hm : move (.i2s bpw delay order bedge) s = .next v) : InOrder I2sOrder v := by
  rw [move_of_scanning (by rw [hphase]; rfl)] at hm
  obtain ⟨hn, x, hx, rfl⟩ | ⟨-, rfl⟩ := scanMove_next hm
  · obtain ⟨l, -, hx⟩ := ok_of_bind hx
    obtain ⟨fe, hfe, hedge⟩ := i2sFrameEdge_eq l s
    cases hedge.symm.trans (Except.ok.inj hx)
    rw [State.advance_of_busy (s := { s with w := { s.w with fe := fe } }) hb]
    refine .goes ht ⟨hord.ordered, hord.le⟩ ⟨?_, (edges_grow hfe hn hlt).2, .inl ⟨hphase, rfl, ?_⟩⟩
    · obtain rfl | rfl := hfe
      · exact hrising
      · exact List.pairwise_append.2 ⟨hrising, List.pairwise_singleton .., by simpa using hle⟩
    · exact fun e he => ((edges_grow hfe (Nat.lt_succ_self _) fun e he => Nat.lt_succ_of_le (hle e he)).2 e he).le
  · exact .goes ht ⟨hord.ordered, hord.le⟩ ⟨hrising, hlt, .inr (.inl ⟨rfl, rfl⟩)⟩

theorem i2s_bitEdges_inOrder {v : State} (hb : s.status.busy = true) (ht : s.tainted = false) (hord : OrderedTo 0 s)
    (hphase : s.phase = .bitEdges) (hrising : s.w.fe.Pairwise (· ≤ ·)) (hlt : ∀ e ∈ s.w.fe, e < s.n)
    (hm : move (.i2s bpw delay order bedge) s = .next v) : InOrder I2sOrder v := by
  rw [i2sMove_bitEdges hphase] at hm
  obtain ⟨hn, x, hx, rfl⟩ | ⟨-, rfl⟩ := scanMove_next hm
  · obtain ⟨l, -, hx⟩ := ok_of_bind hx
    obtain ⟨be, -, hedge⟩ := i2sBitEdge_eq bedge l s
    cases hedge.symm.trans (Except.ok.inj hx)
    rw [State.advance_of_busy (s := { s with w := { s.w with be := be } }) hb]
    exact .goes ht ⟨hord.ordered, hord.le⟩ ⟨hrising, hlt, .inr (.inl ⟨hphase, rfl⟩)⟩
  · exact .goes ht ⟨hord.ordered, hord.le⟩ ⟨hrising, hlt, .inr (.inr ⟨rfl, fun _ _ => Nat.zero_le _⟩)⟩

theorem i2s_words_inOrder {b : Nat} {v : State} (ht : s.tainted = false) (hord : OrderedTo b s)
    (hphase : s.phase = .words) (hrising : s.w.fe.Pairwise (· ≤ ·)) (hlt : ∀ e ∈ s.w.fe, e < s.n)
    (hfloor : ∀ e ∈ s.w.fe.drop s.w.k, b ≤ e) (hm : move (.i2s bpw delay order bedge) s = .next v) :
    InOrder I2sOrder v := by
  by_cases hk : s.w.k + 1 < s.w.fe.length
  · have hk' : s.w.k < s.w.fe.length := Nat.lt_of_succ_lt hk
    have hdrop : s.w.fe.drop s.w.k = s.w.fe[s.w.k] :: s.w.fe.drop (s.w.k + 1) := List.drop_eq_getElem_cons hk'
    have hrest {e : Nat} (he : e ∈ s.w.fe.drop (s.w.k + 1)) : s.w.fe[s.w.k] ≤ e :=
      List.rel_of_pairwise_cons (hdrop ▸ hrising.sublist (List.drop_sublist ..)) he
    have hpair : s.w.fe[s.w.k] ≤ s.w.fe[s.w.k + 1] :=
      List.pairwise_iff_getElem.1 hrising _ _ hk' hk (Nat.lt_succ_self _)
    have hword := (i2sMove_half (by rw [hphase]; nofun) (by rw [hphase]; nofun) (by rw [hphase]; nofun)
      (List.getElem?_eq_getElem hk') (List.getElem?_eq_getElem hk)).1 hm
    obtain rfl | ⟨a, acc, hstart, hstop, rfl⟩ := i2sWord_cases hword
    · exact .goes ht ⟨hord.ordered, hord.le⟩ ⟨hrising, hlt, .inr (.inr ⟨hphase, fun e he =>
        hfloor e (hdrop ▸ List.mem_cons_of_mem _ he)⟩)⟩
    · have h32 := n_lt s
      have hlast := hlt _ (List.getElem_mem hk)
      refine .emitThen ht hord (hstart ▸ hfloor _ (hdrop ▸ List.mem_cons_self)) (by rw [hstart, hstop]; exact hpair)
        (by omega) fun out count => ⟨hrising, hlt, .inr (.inr ⟨hphase, fun e he => hstart ▸ hrest he⟩)⟩
  · cases (i2sMove_words_end hphase (Nat.le_of_not_lt hk)).symm.trans hm
    exact .finish ht hord.ordered _

theorem exec_i2s_ordered (hs : s.Ready (.i2s bpw delay order bedge)) (ht : s.tainted = false)
    (h : exec (.i2s bpw delay order bedge) s = .next t) : Ordered t.out t.outCount.toNat := by
  refine exec_ordered I2sOrder hs ht ⟨.nil, nofun, .inl ⟨rfl, rfl, nofun⟩⟩ (fun b u v hb ht _ hord hR hm => ?_) h
  obtain ⟨hrising, hlt, ⟨hphase, rfl, hle⟩ | ⟨hphase, rfl⟩ | ⟨hphase, hfloor⟩⟩ := hR
  · exact i2s_scan_inOrder hb ht hord hphase hrising hlt hle hm
  · exact i2s_bitEdges_inOrder hb ht hord hphase hrising hlt hm
  · exact i2s_words_inOrder ht hord hphase hrising hlt hfloor hm

end I2s

/-! ## Runs and the bitstream of UART -/

/-- How many samples the runs cover. -/
def runsLength (rs : List Run) : Nat := (rs.map Run.len).sum

@[simp] theorem runsLength_nil : runsLength [] = 0 := rfl

@[simp] theorem runsLength_cons (r : Run) (rs : List Run) : runsLength (r :: rs) = r.len + runsLength rs := rfl

/-- One more sample extends the last run or begins a run behind it (46_uart.md R115). -/
theorem addSample_contiguous {b : Bool} {i : Nat} : ∀ {a : Nat} {rs : List Run}, Contiguous a rs →
    a + runsLength rs = i → Contiguous a (addSample b i rs) ∧ a + runsLength (addSample b i rs) = i + 1
  | a, [], _, hi => by
    subst hi
    exact ⟨⟨rfl, le_rfl, trivial⟩, rfl⟩
  | a, [r], ⟨hstart, hlen, _⟩, hi => by
    simp only [runsLength_cons, runsLength_nil] at hi
    unfold addSample
    split
    · exact ⟨⟨hstart, Nat.le_succ_of_le hlen, trivial⟩, by simp; omega⟩
    · exact ⟨⟨hstart, hlen, by simp only; omega, le_rfl, trivial⟩, by simp; omega⟩
  | a, r :: r' :: rs, ⟨hstart, hlen, hrest⟩, hi => by
    have hi' : a + r.len + runsLength (r' :: rs) = i := by rw [← hi, runsLength_cons r]; omega
    obtain ⟨hc, hl⟩ := addSample_contiguous hrest hi'
    refine ⟨⟨hstart, hlen, hc⟩, ?_⟩
    show a + runsLength (r :: addSample b i (r' :: rs)) = i + 1
    rw [runsLength_cons, ← hl]
    omega

theorem len_pos_of_mem {r : Run} : ∀ {a : Nat} {rs : List Run}, Contiguous a rs → r ∈ rs → 0 < r.len
  | _, _ :: _, ⟨_, hlen, hrest⟩, hr => by
    obtain rfl | hr := List.mem_cons.1 hr
    · exact hlen
    · exact len_pos_of_mem hrest hr

/-- Every entry of BIDX lies before the end of the runs (46_uart.md R119). -/
theorem lt_of_mem_streamIndex (tie : Tie) {pNum pDen : Nat} (hnum : 0 < pNum) (hden : 0 < pDen) {x : Nat} :
    ∀ {a : Nat} {rs : List Run}, Contiguous a rs → x ∈ streamIndex tie pNum pDen rs → x < a + runsLength rs
  | a, r :: rs, ⟨hstart, _, hrest⟩, hx => by
    rw [streamIndex_cons, List.mem_append] at hx
    rw [runsLength_cons]
    obtain hx | hx := hx
    · have := (mem_runIndex_bounds tie hnum hden hx).2
      omega
    · have := lt_of_mem_streamIndex tie hnum hden hrest hx
      omega

theorem mem_storeWrite {α : Type} {e : Nat × α} {a : Nat} {v : α} :
    ∀ {m : List (Nat × α)}, e ∈ storeWrite m a v → e = (a, v) ∨ e ∈ m
  | [], he => .inl (List.mem_singleton.1 he)
  | (k, x) :: m, he => by
    unfold storeWrite at he
    split at he
    · simpa using he
    split at he
    · exact (List.mem_cons.1 he).imp_right (List.mem_cons_of_mem _)
    · obtain rfl | he := List.mem_cons.1 he
      · exact .inr List.mem_cons_self
      · exact (mem_storeWrite he).imp_right (List.mem_cons_of_mem _)

/-- Every run length HIST counts is that of a run (46_uart.md R117). -/
theorem mem_histogram {e : Nat × Nat} {rs : List Run} (he : e ∈ histogram rs) : ∃ r ∈ rs, r.len = e.1 := by
  have hfold : ∀ (rs : List Run) (h : List (Nat × Nat)),
      e ∈ rs.foldl (fun h r => storeWrite h r.len ((storeRead h r.len).getD 0 + 1)) h →
        e ∈ h ∨ ∃ r ∈ rs, r.len = e.1 := by
    intro rs
    induction rs with
    | nil => exact fun h he => .inl he
    | cons r rs ih =>
      intro h he
      obtain he | ⟨r', hr', hlen⟩ := ih _ he
      · exact (mem_storeWrite he).symm.imp_right fun heq => ⟨r, List.mem_cons_self, by rw [heq]⟩
      · exact .inr ⟨r', List.mem_cons_of_mem _ hr', hlen⟩
  exact (hfold rs [] he).resolve_left nofun

/-- A bit period that is found is positive (46_uart.md R116, R117, 30_encoding.md R66). -/
theorem uartPeriodOf_pos {dbits : BitVec 4} {par : Parity} {stop2 auto analog : Bool} {s : State} {rs : List Run}
    {p : Nat × Nat} {a : Nat} (hlegal : legal (.uart dbits par stop2 auto analog) s = true) (hc : Contiguous a rs)
    (hp : uartPeriodOf auto s.op rs = some p) : 0 < p.1 ∧ 0 < p.2 := by
  obtain ⟨rfl, k, hk, rfl⟩ | ⟨rfl, rfl⟩ := uartPeriodOf_eq_some.1 hp
  · obtain ⟨e, he, rfl⟩ := Option.map_eq_some_iff.1 hk
    obtain ⟨r, hr, hlen⟩ := mem_histogram (List.mem_of_find?_eq_some he)
    exact ⟨hlen ▸ len_pos_of_mem hc hr, Nat.one_pos⟩
  · simp only [legal, Latched.legal, Bool.and_eq_true, Bool.or_eq_true, decide_eq_true_eq] at hlegal
    obtain ⟨-, ⟨hnum, hden⟩, hbaud⟩ := hlegal
    have hbaud' : 0 < s.op.baud.toNat := hbaud.resolve_left nofun
    have hprod : 0 < s.op.baud.toNat * s.op.spNum.toNat := Nat.mul_pos hbaud' hnum
    have hgcd : 0 < Nat.gcd s.op.spDen.toNat (s.op.baud.toNat * s.op.spNum.toNat) := Nat.gcd_pos_of_pos_left _ hden
    exact ⟨Nat.div_pos (Nat.gcd_le_left _ hden) hgcd, Nat.div_pos (Nat.gcd_le_right _ hprod) hgcd⟩

/-! ## UART -/

section Uart
variable {dbits : BitVec 4} {par : Parity} {stop2 auto analog : Bool} {s t : State} {b : Nat}

/-- BIDX rises, and lies among the samples. -/
structure State.BidxOk (s : State) : Prop where
  rising : s.w.bidx.Pairwise (· ≤ ·)
  le : ∀ x ∈ s.w.bidx, x ≤ s.n

theorem bidxAt_le (h : s.BidxOk) (c : Nat) : s.bidxAt c ≤ s.n := by
  unfold State.bidxAt
  by_cases hc : c < s.w.bidx.length
  · rw [List.getD_eq_getElem _ _ hc]
    exact h.le _ (List.getElem_mem hc)
  · rw [List.getD_eq_default _ _ (Nat.le_of_not_lt hc)]

/-- BIDX rises, with BIDX[L] = N behind it (46_uart.md R119). -/
theorem bidxAt_mono (h : s.BidxOk) {c d : Nat} (hcd : c ≤ d) : s.bidxAt c ≤ s.bidxAt d := by
  by_cases hd : d < s.w.bidx.length
  · have hc : c < s.w.bidx.length := hcd.trans_lt hd
    unfold State.bidxAt
    rw [List.getD_eq_getElem _ _ hc, List.getD_eq_getElem _ _ hd]
    obtain rfl | hlt := Nat.eq_or_lt_of_le hcd
    · exact le_rfl
    · exact List.pairwise_iff_getElem.1 h.rising c d hc hd hlt
  · have hn : s.bidxAt d = s.n := List.getD_eq_default _ _ (Nat.le_of_not_lt hd)
    exact hn ▸ bidxAt_le h c

/-- The annotations of a frame are in order (46_uart.md R126). -/
theorem frameAnnotations_rising (h : s.BidxOk) (hframe : s.w.frame = frameLength dbits par stop2)
    (hb : b ≤ s.bidxAt s.w.p) : Rising s.n b (frameAnnotations dbits par stop2 s)
      (s.bidxAt (s.w.p + s.w.frame - stopBits stop2)) := by
  have hle {c d : Nat} (hcd : c ≤ d) := bidxAt_mono h hcd
  have hn (c : Nat) := bidxAt_le h c
  have hstop : s.w.p + s.w.frame - stopBits stop2 = s.w.p + 1 + dbits.toNat + parityBits par := by
    rw [hframe, frameLength]
    omega
  unfold frameAnnotations
  by_cases hpar : par = .none
  · have hbits : parityBits par = 0 := by simp [parityBits, hpar]
    simp only [hpar, if_true, List.append_nil, List.cons_append, List.nil_append, Rising]
    exact ⟨hb, hle (by omega), hn _, hle (by omega), hle (by omega), hn _, hle (by omega), hle (by omega), hn _,
      trivial⟩
  · have hbits : parityBits par = 1 := by simp [parityBits, hpar]
    simp only [hpar, if_false, List.cons_append, List.nil_append, Rising]
    exact ⟨hb, hle (by omega), hn _, hle (by omega), hle (by omega), hn _, hle (by omega), hle (by omega), hn _,
      hle (by omega), hle (by omega), hn _, trivial⟩

/-- What of the samples the runs cover so far. -/
structure State.RunsTo (s : State) (i : Nat) : Prop where
  contiguous : Contiguous 0 s.w.runs
  length : runsLength s.w.runs = i

/-- Where UART stands: no record before the walk, whose position has no later record before `b`. -/
inductive UartOrder (frame : Nat) (b : Nat) (s : State) : Prop
  | scan (hphase : s.phase = .scan) (hb : b = 0) (hindex : s.w.i ≤ s.n) (hruns : s.RunsTo s.w.i) (hbidx : s.w.bidx = [])
      (hbits : s.w.bits = [])
  | period (hphase : s.phase = .period) (hb : b = 0) (hruns : s.RunsTo s.n) (hbidx : s.w.bidx = [])
      (hbits : s.w.bits = [])
  | resample (hphase : s.phase = .resample) (hb : b = 0) (hruns : s.RunsTo s.n) (hnum : 0 < s.w.pNum)
      (hden : 0 < s.w.pDen)
      (hbidx : s.w.bidx = (streamIndex s.cfg.uartTie s.w.pNum s.w.pDen s.w.runs).take s.w.bits.length)
  | search (hphase : s.phase = .search) (hb : b = 0) (hbidx : s.BidxOk) (hframe : s.w.frame = frame)
  | walk (hphase : s.phase = .walk) (hbidx : s.BidxOk) (hframe : s.w.frame = frame) (hb : b ≤ s.bidxAt s.w.p)

theorem uart_scan_inOrder {frame : Nat} {v : State} (hb : s.status.busy = true) (ht : s.tainted = false)
    (hord : OrderedTo 0 s) (hphase : s.phase = .scan) (hindex : s.w.i ≤ s.n) (hruns : s.RunsTo s.w.i)
    (hbidx : s.w.bidx = []) (hbits : s.w.bits = []) (hm : move (.uart dbits par stop2 auto analog) s = .next v) :
    InOrder (UartOrder frame) v := by
  rw [move_of_scanning (scanning_uart_scan hphase)] at hm
  obtain ⟨hn, u, hu, rfl⟩ | ⟨hn, rfl⟩ := scanMove_next hm
  · obtain ⟨x, -, hu⟩ := ok_of_bind hu
    cases hu
    rw [State.advance_of_busy (s := { s with w := { s.w with runs := addSample x s.w.i s.w.runs } }) hb]
    obtain ⟨hc, hl⟩ := addSample_contiguous (b := x) hruns.contiguous (by rw [hruns.length, Nat.zero_add])
    rw [Nat.zero_add] at hl
    exact .goes ht ⟨hord.ordered, hord.le⟩ (.scan hphase rfl hn ⟨hc, hl⟩ hbidx hbits)
  · have hall : s.w.i = s.n := Nat.le_antisymm hindex hn
    exact .goes ht ⟨hord.ordered, hord.le⟩ (.period rfl rfl ⟨hruns.contiguous, hall ▸ hruns.length⟩ hbidx hbits)

theorem uart_period_inOrder {frame : Nat} {v : State} (hlegal : legal (.uart dbits par stop2 auto analog) s = true)
    (ht : s.tainted = false) (hord : OrderedTo 0 s) (hphase : s.phase = .period) (hruns : s.RunsTo s.n)
    (hbidx : s.w.bidx = []) (hbits : s.w.bits = []) (hm : move (.uart dbits par stop2 auto analog) s = .next v) :
    InOrder (UartOrder frame) v := by
  cases (uartMove_period hphase).symm.trans hm
  cases hp : uartPeriodOf auto s.op s.w.runs with
  | none =>
    rw [uartPeriod_of_none hp]
    exact .finish ht hord.ordered _
  | some p =>
    obtain ⟨hnum, hden⟩ := uartPeriodOf_pos hlegal hruns.contiguous hp
    obtain ⟨hist, heq⟩ := uartPeriod_of_some hp
    rw [heq]
    unfold uartStream
    split
    · exact .finish (s := ({ s with w := { s.w with hist := hist } }).setPeriod p) ht hord.ordered _
    · refine .goes ht ⟨hord.ordered, hord.le⟩ (.resample rfl rfl ⟨hruns.contiguous, hruns.length⟩ hnum hden ?_)
      show s.w.bidx = List.take s.w.bits.length _
      rw [hbidx, hbits]
      rfl

theorem uart_resample_inOrder {v : State} (ht : s.tainted = false) (hord : OrderedTo 0 s) (hphase : s.phase = .resample)
    (hruns : s.RunsTo s.n) (hnum : 0 < s.w.pNum) (hden : 0 < s.w.pDen)
    (hbidx : s.w.bidx = (streamIndex s.cfg.uartTie s.w.pNum s.w.pDen s.w.runs).take s.w.bits.length)
    (hm : move (.uart dbits par stop2 auto analog) s = .next v) :
    InOrder (UartOrder (frameLength dbits par stop2)) v := by
  cases (uartMove_resample hphase).symm.trans hm
  unfold uartResample
  split
  · next v x he =>
    refine .goes ht ⟨hord.ordered, hord.le⟩ (.resample hphase rfl ⟨hruns.contiguous, hruns.length⟩ hnum hden ?_)
    have hx : (streamIndex s.cfg.uartTie s.w.pNum s.w.pDen s.w.runs)[s.w.bits.length]? = some x := by
      rw [streamEntry_eq] at he
      split at he
      · next hx => cases he; exact hx
      · cases he
    show s.w.bidx ++ [x] = List.take (s.w.bits ++ [v]).length _
    rw [List.length_append, List.length_singleton, List.take_add_one, hx, hbidx]
    rfl
  · have hok : s.BidxOk := by
      refine ⟨hbidx ▸ (pairwise_streamIndex _ (fun _ _ => Nat.le_of_lt) hnum hden (pairwise_le_runIndex _)
        hruns.contiguous).sublist (List.take_sublist ..), fun x hx => ?_⟩
      have hlt := lt_of_mem_streamIndex _ hnum hden hruns.contiguous (List.mem_of_mem_take (hbidx ▸ hx))
      rw [hruns.length] at hlt
      omega
    dsimp only
    split
    · exact .finish (s := { s with
        uartBslen := BitVec.ofNat 32 s.w.bits.length
        w := { s.w with frame := frameLength dbits par stop2 } }) ht hord.ordered _
    · exact .goes ht ⟨hord.ordered, hord.le⟩ (.search rfl rfl ⟨hok.rising, hok.le⟩ rfl)

theorem uart_search_inOrder {frame : Nat} {v : State} (ht : s.tainted = false) (hord : OrderedTo 0 s)
    (hphase : s.phase = .search) (hok : s.BidxOk) (hframe : s.w.frame = frame)
    (hm : move (.uart dbits par stop2 auto analog) s = .next v) : InOrder (UartOrder frame) v := by
  cases (uartMove_search hphase).symm.trans hm
  unfold uartSearch
  split
  · dsimp only
    split <;> exact .goes ht ⟨hord.ordered, hord.le⟩ (.search hphase rfl ⟨hok.rising, hok.le⟩ hframe)
  · exact .goes ht ⟨hord.ordered, hord.le⟩ (.walk rfl ⟨hok.rising, hok.le⟩ hframe (Nat.zero_le _))

theorem uart_walk_inOrder {v : State} (ht : s.tainted = false) (hord : OrderedTo b s) (hphase : s.phase = .walk)
    (hok : s.BidxOk) (hframe : s.w.frame = frameLength dbits par stop2) (hb : b ≤ s.bidxAt s.w.p)
    (hm : move (.uart dbits par stop2 auto analog) s = .next v) :
    InOrder (UartOrder (frameLength dbits par stop2)) v := by
  cases (uartMove_walk hphase).symm.trans hm
  unfold uartWalk
  split
  · split
    · have hgoes := emitAll_congr (k := fun t : State => { t with w := { t.w with p := t.w.p + t.w.frame } })
        (k' := (·.withRegs { s with w := { s.w with p := s.w.p + s.w.frame } }))
        (frameAnnotations dbits par stop2 s) s fun _ _ => rfl
      rw [hgoes]
      exact .emitAll (n_lt s) ht hord (frameAnnotations_rising hok hframe hb) fun out count =>
        .walk hphase ⟨hok.rising, hok.le⟩ hframe (bidxAt_mono hok (Nat.sub_le ..))
    · exact .goes ht ⟨hord.ordered, hord.le⟩
        (.walk hphase ⟨hok.rising, hok.le⟩ hframe (hb.trans (bidxAt_mono hok (Nat.le_succ _))))
  · exact .finish ht hord.ordered _

theorem exec_uart_ordered (hs : s.Ready (.uart dbits par stop2 auto analog)) (ht : s.tainted = false)
    (h : exec (.uart dbits par stop2 auto analog) s = .next t) : Ordered t.out t.outCount.toNat := by
  refine exec_ordered (UartOrder (frameLength dbits par stop2)) hs ht
    (.scan rfl rfl (Nat.zero_le _) ⟨trivial, rfl⟩ rfl rfl) (fun b u v hb ht hop hord hR hm => ?_) h
  cases hR with
  | scan hphase hzero hindex hruns hbidx hbits =>
    exact uart_scan_inOrder hb ht (hzero ▸ hord) hphase hindex hruns hbidx hbits hm
  | period hphase hzero hruns hbidx hbits =>
    have hlegal : legal (.uart dbits par stop2 auto analog) u = true := by
      rw [legal, hop]
      exact hs.2.1
    exact uart_period_inOrder hlegal ht (hzero ▸ hord) hphase hruns hbidx hbits hm
  | resample hphase hzero hruns hnum hden hbidx =>
    exact uart_resample_inOrder ht (hzero ▸ hord) hphase hruns hnum hden hbidx hm
  | search hphase hzero hok hframe => exact uart_search_inOrder ht (hzero ▸ hord) hphase hok hframe hm
  | walk hphase hok hframe hfloor => exact uart_walk_inOrder ht hord hphase hok hframe hfloor hm

end Uart

/-- Settles O26: every micro-step emits in order, whichever loop the operation is in. -/
theorem everyOutputIsOrdered : Obligations.EveryOutputIsOrdered := by
  intro i s t hunit hs ht h
  cases i with
  | edges => cases hunit
  | onewire | spi3 | spi4 | i2c | sync => exact exec_oneScan_ordered rfl rfl hs ht h
  | i2s => exact exec_i2s_ordered hs ht h
  | uart => exact exec_uart_ordered hs ht h

end Sys2Proof.Machine
end

section
/-! EDGES writes its slot's edge list (O32). -/

namespace Sys2Proof.Machine

variable {filt : Filter} {slot : BitVec 2} {s : State} {es : List Nat}

/-- The edge list of indices, the first of them taken off (40_edge_extractor.md R74). -/
theorem edgesAmong_cons {i : Nat} {is : List Nat} (h : edgesAmong s slot filt (i :: is) = .ok es) :
    ∃ l rest, s.levels slot i = .ok l ∧ edgesAmong s slot filt is = .ok rest ∧
      es = if filterHit filt l then i :: rest else rest := by
  obtain ⟨l, hl, h⟩ := ok_of_bind h
  obtain ⟨rest, hrest, h⟩ := ok_of_bind h
  exact ⟨l, rest, hl, hrest, (Except.ok.inj h).symm⟩

theorem lt_length_of_drop_eq_cons {l r : List Nat} {k a : Nat} (h : l.drop k = a :: r) : k < l.length := by
  by_contra hge
  rw [List.drop_eq_nil_of_le (Nat.le_of_not_lt hge)] at h
  cases h

/-- In the scan of EDGES, started at `s`: the words written are the first OUT_COUNT edges of `es`, and those that are
left are the edges from the current index on (40_edge_extractor.md R75). -/
structure EdgeScan (filt : Filter) (slot : BitVec 2) (s : State) (es : List Nat) (u : State) : Prop where
  phase : u.phase = .scan
  tainted : u.tainted = false
  kept : u.kept = s.kept
  index : u.outCount.toNat < u.w.i
  room : u.outCount.toNat ≤ 4 * s.cfg.outCap.toNat
  count : u.outCount.toNat ≤ es.length
  words : ∀ k, k < u.outCount.toNat → (wordAt u.out (4 * k)).toNat = es.getD k 0
  rest : edgesAmong s slot filt (List.range' u.w.i (s.n - u.w.i)) = .ok (es.drop u.outCount.toNat)

/-- How EDGES ends (40_edge_extractor.md R75, 20_memory.md R49). -/
structure EdgesWritten (cap : Nat) (es : List Nat) (t : State) : Prop where
  result : t.status.result = if es.length ≤ cap then 0 else 4
  count : t.outCount.toNat = min es.length cap
  words : ∀ k, k < t.outCount.toNat → (wordAt t.out (4 * k)).toNat = es.getD k 0

section Step
variable {u : State}

theorem EdgeScan.fields (h : EdgeScan filt slot s es u) : u.n = s.n ∧ u.cfg = s.cfg ∧
    ∀ j, u.levels slot j = s.levels slot j := by
  have hfield {α : Type} (f : State → α) : f u.kept = f s.kept := congrArg f h.kept
  exact ⟨hfield State.n, hfield State.cfg, fun j => hfield (·.levels slot j)⟩

/-- OUT is full and an edge is left. -/
theorem EdgeScan.overflow (h : EdgeScan filt slot s es u) (hfull : ¬ u.outCount.toNat < 4 * s.cfg.outCap.toNat)
    (hmore : u.outCount.toNat < es.length) : EdgesWritten (4 * s.cfg.outCap.toNat) es (u.finish .outOverflow) := by
  have hroom := h.room
  rw [State.finish_of_not_tainted h.tainted]
  refine ⟨?_, ?_, h.words⟩
  · rw [if_neg (by omega)]; rfl
  · show u.outCount.toNat = _
    omega

/-- No edge is left. -/
theorem EdgeScan.ends (h : EdgeScan filt slot s es u) (hnone : es.drop u.outCount.toNat = []) :
    EdgesWritten (4 * s.cfg.outCap.toNat) es (u.finish .ok) := by
  have hroom := h.room
  have hcount := h.count
  have hlen := List.drop_eq_nil_iff.1 hnone
  rw [State.finish_of_not_tainted h.tainted]
  refine ⟨?_, ?_, h.words⟩
  · rw [if_pos (by omega)]; rfl
  · show u.outCount.toNat = _
    omega

/-- An edge at the current index, with room for its word. -/
theorem EdgeScan.word (h : EdgeScan filt slot s es u) (hn : u.w.i < s.n) (hr : u.outCount.toNat < 4 * s.cfg.outCap.toNat)
    {rest : List Nat} (hrest : edgesAmong s slot filt (List.range' (u.w.i + 1) (s.n - (u.w.i + 1))) = .ok rest)
    (hdrop : es.drop u.outCount.toNat = u.w.i :: rest) :
    EdgeScan filt slot s es { u with
      out := writeWord u.out (4 * u.outCount.toNat) (BitVec.ofNat 32 u.w.i)
      outCount := u.outCount + 1
      w := { u.w with i := u.w.i + 1 } } := by
  obtain ⟨hphase, htaint, hkept, hindex, -, -, hwords, -⟩ := h
  have hn32 := n_lt s
  have hmore := lt_length_of_drop_eq_cons hdrop
  have hsplit := List.drop_eq_getElem_cons hmore
  rw [hdrop] at hsplit
  obtain ⟨hhead, htail⟩ := List.cons.inj hsplit
  have hcount : (u.outCount + 1).toNat = u.outCount.toNat + 1 := by
    rw [BitVec.toNat_add]
    exact Nat.mod_eq_of_lt (by simp; omega)
  refine ⟨hphase, htaint, hkept, ?_, ?_, ?_, fun k hk => ?_, ?_⟩
  · show (u.outCount + 1).toNat < u.w.i + 1
    omega
  · exact hcount ▸ hr
  · exact hcount ▸ hmore
  · have hk' : k < (u.outCount + 1).toNat := hk
    show (wordAt (writeWord u.out _ _) (4 * k)).toNat = _
    by_cases hlast : k = u.outCount.toNat
    · rw [hlast, wordAt_writeWord_same, BitVec.toNat_ofNat, Nat.mod_eq_of_lt (by omega), List.getD_eq_getElem _ _ hmore,
        hhead]
    · rw [wordAt_writeWord_other _ _ (by omega)]
      exact hwords k (by omega)
  · show edgesAmong s slot filt (List.range' (u.w.i + 1) (s.n - (u.w.i + 1))) = .ok (es.drop (u.outCount + 1).toNat)
    rw [hrest, hcount, htail]

/-- An index without an edge. -/
theorem EdgeScan.skip (h : EdgeScan filt slot s es u)
    (hrest : edgesAmong s slot filt (List.range' (u.w.i + 1) (s.n - (u.w.i + 1))) = .ok (es.drop u.outCount.toNat)) :
    EdgeScan filt slot s es { u with w := { u.w with i := u.w.i + 1 } } :=
  ⟨h.phase, h.tainted, h.kept, Nat.lt_succ_of_lt h.index, h.room, h.count, h.words, hrest⟩

/-- A micro-step of the scan goes on at the next index, or ends the operation. -/
def EdgeGoes (filt : Filter) (slot : BitVec 2) (s : State) (es : List Nat) (u t : State) : Prop :=
  (t.status.busy = true → EdgeScan filt slot s es t ∧ s.n - t.w.i < s.n - u.w.i) ∧
    (t.status.busy = false → EdgesWritten (4 * s.cfg.outCap.toNat) es t)

theorem EdgeGoes.of_finish {r : Result} (h : EdgesWritten (4 * s.cfg.outCap.toNat) es (u.finish r)) :
    EdgeGoes filt slot s es u (u.finish r) :=
  ⟨fun hbusy => absurd ((u.finish_busy r).symm.trans hbusy) nofun, fun _ => h⟩

theorem EdgeGoes.of_scan {t : State} (h : EdgeScan filt slot s es t) (hb : t.status.busy = true)
    (hi : t.w.i = u.w.i + 1) (hlt : u.w.i < s.n) : EdgeGoes filt slot s es u t :=
  ⟨fun _ => ⟨h, by omega⟩, fun hidle => absurd (hb.symm.trans hidle) nofun⟩

/-- The step at an index, which moves on unless OUT was full. -/
theorem EdgeScan.index_goes (h : EdgeScan filt slot s es u) (hb : u.status.busy = true) (hi : u.w.i < s.n)
    {l : Bool × Bool} (hl : s.levels slot u.w.i = .ok l) : EdgeGoes filt slot s es u (edgesStep filt l u).advance := by
  have hcfg := h.fields.2.1
  have hrange : List.range' u.w.i (s.n - u.w.i) = u.w.i :: List.range' (u.w.i + 1) (s.n - (u.w.i + 1)) := by
    rw [show s.n - u.w.i = s.n - (u.w.i + 1) + 1 by omega, List.range'_succ]
  obtain ⟨l', rest, hl', hrest, hes⟩ := edgesAmong_cons (hrange ▸ h.rest)
  cases hl.symm.trans hl'
  unfold edgesStep
  by_cases hhit : filterHit filt l = true
  · rw [if_pos hhit] at hes ⊢
    by_cases hr : u.outCount.toNat < 4 * s.cfg.outCap.toNat
    · rw [emitIndex_room _ _ (hcfg ▸ hr), id_eq, State.advance_of_busy (by exact hb)]
      exact .of_scan (h.word hi hr hrest hes) hb rfl hi
    · rw [emitIndex_full _ _ (hcfg ▸ hr), State.advance_of_not_busy (u.finish_busy _)]
      exact .of_finish (h.overflow hr (lt_length_of_drop_eq_cons hes))
  · rw [if_neg hhit] at hes ⊢
    rw [State.advance_of_busy hb]
    exact .of_scan (h.skip (hes ▸ hrest)) hb rfl hi

theorem EdgeScan.step (h : EdgeScan filt slot s es u) (hb : u.status.busy = true) :
    ∃ t, move (.edges filt slot) u = .next t ∧ EdgeGoes filt slot s es u t := by
  obtain ⟨hn, -, hlevels⟩ := h.fields
  have hmove : move (.edges filt slot) u = _ := move_of_scanning (by rw [h.phase]; rfl)
  by_cases hi : u.w.i < s.n
  · have hrest := h.rest
    rw [show s.n - u.w.i = s.n - (u.w.i + 1) + 1 by omega, List.range'_succ] at hrest
    obtain ⟨l, -, hl, -⟩ := edgesAmong_cons hrest
    have hstep : scanStep (.edges filt slot) u = .ok (edgesStep filt l u) := by
      simp only [scanStep, hlevels, hl]; rfl
    exact ⟨_, hmove.trans (scanMove_of_lt (hn ▸ hi) hstep), h.index_goes hb hi hl⟩
  · have hnone : es.drop u.outCount.toNat = [] := by
      have hrest := h.rest
      rw [show s.n - u.w.i = 0 by omega] at hrest
      exact (Except.ok.inj hrest).symm
    exact ⟨_, hmove.trans (scanMove_of_ge (hn ▸ Nat.le_of_not_lt hi)), .of_finish (h.ends hnone)⟩

end Step

/-- Settles O32: every micro-step of the scan keeps `EdgeScan` or ends as `EdgesWritten` says. -/
theorem edgesWritesTheEdgeList : Obligations.EdgesWritesTheEdgeList := by
  intro filt slot s es hs ht hes
  have hfirst : EdgeScan filt slot s es (firstState (.edges filt slot) s) :=
    ⟨rfl, ht, rfl, Nat.one_pos, Nat.zero_le _, Nat.zero_le _, nofun, hes⟩
  have hfuel : s.n - (firstState (.edges filt slot) s).w.i + 1 < s.stepBound := by
    unfold State.stepBound
    omega
  obtain ⟨t, hrun, hend, hout⟩ := exec_finishes (EdgeScan filt slot s es) (EdgesWritten (4 * s.cfg.outCap.toNat) es)
    (fun u => s.n - u.w.i) hs hfirst hfuel fun u hb hu => hu.step hb
  exact ⟨t, hrun, hend.busy, hend.done, hout.result, hout.count, hout.words⟩

end Sys2Proof.Machine
end

section
/-! Sample slots, ACH0, OUT and the records in it (O14, O15, O16, O30). -/

namespace Sys2Proof.Machine

/-! ## Words and bytes as numbers -/

theorem toNat_append_eq_add {m n : Nat} (x : BitVec m) (y : BitVec n) :
    (x ++ y).toNat = 2 ^ n * x.toNat + y.toNat := by
  rw [BitVec.toNat_append, ← Nat.shiftLeft_add_eq_or_of_lt y.isLt, Nat.shiftLeft_eq, Nat.mul_comm]

theorem wordAt_toNat (m : Mem) (a : Nat) : (wordAt m a).toNat =
    (byteAt m a).toNat + 256 * (byteAt m (a + 1)).toNat + 65536 * (byteAt m (a + 2)).toNat +
      16777216 * (byteAt m (a + 3)).toNat := by
  simp only [wordAt, toNat_append_eq_add]
  omega

/-- Bytes that hold `v`, least significant first, are the number `v` as far as they reach (20_memory.md R44). -/
theorem bytesAt_of_bytes {m : Mem} : ∀ (n : Nat) {a v : Nat},
    (∀ j, j < n → storeRead m (a + j) = some (BitVec.ofNat 8 (v / 256 ^ j))) → bytesAt m n a = some (v % 256 ^ n)
  | 0, a, v, _ => by simp [bytesAt, Nat.mod_one]
  | n + 1, a, v, h => by
    have hhead : storeRead m a = some (BitVec.ofNat 8 v) := by simpa using h 0 (Nat.succ_pos n)
    have htail := bytesAt_of_bytes n (a := a + 1) (v := v / 256) fun j hj => by
      rw [Nat.div_div_eq_div_mul, ← Nat.pow_succ', ← h (j + 1) (Nat.succ_lt_succ hj)]
      congr 1
      omega
    have hsplit : v % 256 ^ (n + 1) = v % 256 + 256 * (v / 256 % 256 ^ n) := by rw [Nat.pow_succ', Nat.mod_mul]
    simp only [bytesAt, hhead, htail, BitVec.toNat_ofNat, hsplit]

/-! ## Host accesses to a memory -/

theorem hostAct_chWrite (k : BitVec 2) (addr : Nat) (b : Byte) (s : State) :
    hostAct (.chWrite k addr b) s = memAct (s.chBase k) addr fun off => s.chWrite k off b := rfl

theorem hostAct_analogWrite (addr : Nat) (b : Byte) (s : State) :
    hostAct (.analogWrite addr b) s = memAct s.cfg.ach0Base addr fun off => s.analogWrite off b := rfl

theorem hostAct_outRead (addr : Nat) (acc : Access) (s : State) :
    hostAct (.outRead addr acc) s = memAct s.cfg.outBase addr fun off => s.outRead off acc := rfl

/-- An access at or above the memory's base is one by byte number (20_memory.md R50). -/
theorem memAct_of_le {base addr : Nat} (act : Nat → Host.Outcome State Fault Refusal) (h : base ≤ addr) :
    memAct base addr act = act (addr - base) := if_pos h

/-! ## Host writes of samples -/

theorem chWrite_of_lt (s : State) (k : BitVec 2) {off : Nat} (b : Byte) (h : off < 2 ^ 29) :
    s.chWrite k off b = .next (s.taintIfBusy.setSlotByte k off b) := if_pos h

theorem chWrite_of_ge (s : State) (k : BitVec 2) {off : Nat} (b : Byte) (h : 2 ^ 29 ≤ off) :
    s.chWrite k off b = .fault .noSuchSample := if_neg (Nat.not_lt.2 h)

theorem analogWrite_of_lt (s : State) {off : Nat} (b : Byte) (h : off < 2 ^ 32 * s.cfg.analogFormat.bytes) :
    s.analogWrite off b = .next { s.taintIfBusy with ach0 := storeWrite s.ach0 off b } := if_pos h

theorem analogWrite_of_ge (s : State) {off : Nat} (b : Byte) (h : 2 ^ 32 * s.cfg.analogFormat.bytes ≤ off) :
    s.analogWrite off b = .fault .noSuchSample := if_neg (Nat.not_lt.2 h)

theorem sampleIn_congr {m m' : Mem} {i : Nat} (h : storeRead m (i / 8) = storeRead m' (i / 8)) :
    sampleIn m i = sampleIn m' i := by
  rw [sampleIn, h, sampleIn]

/-- A slot byte holds its eight samples (20_memory.md R43). -/
theorem sampleIn_storeWrite_same (m : Mem) (off : Nat) (b : Byte) {j : Nat} (h : j < 8) :
    sampleIn (storeWrite m off b) (8 * off + j) = some (b.getLsbD j) := by
  have hdiv : (8 * off + j) / 8 = off := by omega
  have hmod : (8 * off + j) % 8 = j := by omega
  simp [sampleIn, hdiv, hmod, storeRead_storeWrite_same]

theorem sampleIn_setSlotByte_other (s : State) {k k' : BitVec 2} {off i : Nat} (b : Byte) (h : k' ≠ k ∨ i / 8 ≠ off) :
    sampleIn ((s.setSlotByte k off b).chan k') i = sampleIn (s.chan k') i := by
  rw [setSlotByte_chan]
  split
  · next hk => exact sampleIn_congr (hk ▸ storeRead_storeWrite_other _ _ (h.resolve_left (not_not_intro hk)))
  · rfl

theorem setSlotByte_tainted (s : State) (k : BitVec 2) (off : Nat) (b : Byte) :
    (s.setSlotByte k off b).tainted = s.tainted := by
  unfold State.setSlotByte
  split <;> rfl

/-- The element at index i takes the bytes from `bytes · i` on, and no other (log entry 7). -/
theorem ach_storeWrite_other (s : State) {off i : Nat} (b : Byte) (h : i ≠ off / s.cfg.analogFormat.bytes) :
    ({ s.taintIfBusy with ach0 := storeWrite s.ach0 off b }).ach i = s.ach i := by
  have hbytes : bytesAt (storeWrite s.ach0 off b) s.cfg.analogFormat.bytes (s.cfg.analogFormat.bytes * i) =
      bytesAt s.ach0 s.cfg.analogFormat.bytes (s.cfg.analogFormat.bytes * i) := by
    refine bytesAt_congr _ _ fun x h1 h2 => storeRead_storeWrite_other _ _ fun hx => h ?_
    subst hx
    exact (Nat.div_eq_of_lt_le (by rwa [Nat.mul_comm]) (by rwa [Nat.succ_mul, Nat.mul_comm])).symm
  exact congrArg (Option.map s.cfg.analogFormat.value) hbytes

/-- Only the low `width` bits of an element's bytes count, and the bytes hold them all (93 I17). -/
theorem value_mod_bytes (f : AnalogFormat) (v : Nat) : f.value (v % 256 ^ f.bytes) =
    if f.signed = true then ((BitVec.ofNat f.width v).toInt : Rat) else ((v % 2 ^ f.width : Nat) : Rat) := by
  have hdvd : 2 ^ f.width ∣ 256 ^ f.bytes := by
    rw [show 256 = 2 ^ 8 by decide, ← Nat.pow_mul]
    refine Nat.pow_dvd_pow 2 ?_
    unfold AnalogFormat.bytes
    omega
  have hlow : BitVec.ofNat f.width (v % 256 ^ f.bytes) = BitVec.ofNat f.width v :=
    BitVec.eq_of_toNat_eq (by rw [BitVec.toNat_ofNat, BitVec.toNat_ofNat, Nat.mod_mod_of_dvd v hdvd])
  rw [AnalogFormat.value, hlow, BitVec.toNat_ofNat]

theorem ach_of_bytes {s : State} {i v : Nat} (h : ∀ j, j < s.cfg.analogFormat.bytes →
    storeRead s.ach0 (s.cfg.analogFormat.bytes * i + j) = some (BitVec.ofNat 8 (v / 256 ^ j))) :
    s.ach i = some (s.cfg.analogFormat.value (v % 256 ^ s.cfg.analogFormat.bytes)) := by
  simp only [State.ach, bytesAt_of_bytes _ h, Option.map_some]

/-- Settles O14: a slot write is `setSlotByte`, a write of ACH0 one `storeWrite`. -/
theorem slotWriteSetsEightSamples : Obligations.SlotWriteSetsEightSamples := by
  intro s
  refine ⟨⟨rfl, rfl, rfl, rfl⟩, fun k off b hoff => ⟨s.taintIfBusy.setSlotByte k off b, ?_, fun j hj => ?_,
      fun k' i h => sampleIn_setSlotByte_other s.taintIfBusy b h, setSlotByte_tainted .., ?_⟩,
    fun k addr b => ⟨fun h => ?_, fun h => ?_⟩, fun off b hoff => ⟨_, ?_, storeRead_storeWrite_same ..,
      fun a ha => storeRead_storeWrite_other _ _ ha, fun i hi => ach_storeWrite_other s b hi, rfl, rfl⟩,
    fun addr b => ⟨fun h => ?_, fun h => ?_⟩, fun i v h => ?_⟩
  · rw [hostAct_chWrite, memAct_base, chWrite_of_lt s k b hoff]
  · rw [setSlotByte_chan, if_pos rfl]
    exact sampleIn_storeWrite_same _ _ _ hj
  · exact congrArg (fun t : State => { t with tainted := s.tainted }) (setSlotByte_frame s.taintIfBusy k off b)
  · rw [hostAct_chWrite, memAct_of_le _ (by omega), chWrite_of_ge s k b (by omega)]
  · rw [hostAct_chWrite, memAct_below _ h]
  · rw [hostAct_analogWrite, memAct_base, analogWrite_of_lt s b hoff]
  · rw [hostAct_analogWrite, memAct_of_le _ (by omega), analogWrite_of_ge s b (by omega)]
  · rw [hostAct_analogWrite, memAct_below _ h]
  · rw [ach_of_bytes h, value_mod_bytes]

/-! ## Host reads of OUT -/

theorem outRead_invalid {s : State} {addr : Nat} {acc : Access}
    (h : s.finishedOnce = false ∨ s.outUnit * s.outCount.toNat < addr + acc.bytes) :
    s.outRead addr acc = .fault .outNotValid := by
  refine if_neg fun ⟨hfinished, hle⟩ => ?_
  obtain h | h := h
  · exact absurd (h.symm.trans hfinished) nofun
  · omega

section OutRead
variable {s : State} {addr : Nat} {acc : Access} (hfinished : s.finishedOnce = true)
  (hle : addr + acc.bytes ≤ s.outUnit * s.outCount.toNat)

include hfinished hle

theorem outRead_busy (hb : s.status.busy = true) : s.outRead addr acc =
    .next { s with hostData := lowBytes acc (Config.freeWord s.free), free := s.free + 1 } := by
  simp [State.outRead, hfinished, hle, hb, State.draw]

theorem outRead_idle (hb : s.status.busy = false) {v : Nat} (hv : bytesAt s.out acc.bytes addr = some v) :
    s.outRead addr acc = .next { s with hostData := BitVec.ofNat 32 v } := by
  simp [State.outRead, hfinished, hle, hb, hv]

end OutRead

theorem bytesAt_succ {m : Mem} {n a v : Nat} {b : Byte} (hb : storeRead m a = some b) (hv : bytesAt m n (a + 1) = some v) :
    bytesAt m (n + 1) a = some (b.toNat + 256 * v) := by
  simp only [bytesAt, hb, hv]

/-- Settles O16: whether the read is valid, whether the block is busy, and the bytes by width. -/
theorem outReads : Obligations.OutReads := by
  intro s addr
  have hhost (acc : Access) : hostAct (.outRead (s.cfg.outBase + addr) acc) s = s.outRead addr acc := by
    rw [hostAct_outRead, memAct_base]
  refine ⟨fun acc h => (hhost acc).trans (outRead_invalid h), fun hfin => ⟨fun acc hb hle => ?_, fun b hb hle h0 => ?_,
    fun b0 b1 hb hle h0 h1 => ?_, fun hb hle b0 b1 b2 b3 h0 h1 h2 h3 => ?_⟩,
    fun acc h => by rw [hostAct_outRead, memAct_below _ h], ?_⟩
  · exact ⟨_, (hhost acc).trans (outRead_busy hfin hle hb)⟩
  · have hv := bytesAt_succ (n := 0) h0 rfl
    rw [hhost, outRead_idle (acc := .byte) hfin hle hb hv]
    congr 2
    exact BitVec.eq_of_toNat_eq (by simp)
  · have hv := bytesAt_succ h0 (bytesAt_succ (n := 0) h1 rfl)
    rw [hhost, outRead_idle (acc := .half) hfin hle hb hv]
    congr 2
    refine BitVec.eq_of_toNat_eq ?_
    simp only [BitVec.toNat_ofNat, BitVec.toNat_setWidth, toNat_append_eq_add]
    omega
  · have hv := bytesAt_succ h0 (bytesAt_succ h1 (bytesAt_succ h2 (bytesAt_succ (n := 0) h3 rfl)))
    rw [hhost, outRead_idle (acc := .word) hfin hle hb hv]
    congr 2
    refine BitVec.eq_of_toNat_eq ?_
    simp only [BitVec.toNat_ofNat, toNat_append_eq_add]
    omega
  · have hop : s.cmd.extractLsb' 0 4 = 0 ↔ s.cmd.toNat % 16 = 0 := by
      rw [← BitVec.toNat_inj, BitVec.extractLsb'_toNat]
      rfl
    simp only [State.outUnit, hop]

end Sys2Proof.Machine
end

section
/-! The record an emit writes (O15), the samples an operation reads (O30, O21), and how an operation ends (O25). -/

namespace Sys2Proof.Machine

/-! ## The record -/

/-- Word 2 of a record as a number (30_encoding.md R68). -/
theorem tagWord_toNat (a : Annotation) : a.tagWord.toNat =
    a.colour.code.toNat + 16 * a.payload.kind.toNat + 256 * a.label.code.toNat + 65536 * a.payload.width.toNat := by
  have hzero : (0#10).toNat = 0 := rfl
  simp only [Annotation.tagWord, toNat_append_eq_add, hzero]
  omega

/-- The fields of word 2 read back (30_encoding.md R68). -/
theorem tagWord_fields (a : Annotation) :
    a.tagWord.extractLsb' 8 8 = a.label.code ∧ a.tagWord.extractLsb' 0 4 = a.colour.code ∧
      a.tagWord.extractLsb' 4 4 = a.payload.kind ∧ a.tagWord.extractLsb' 16 6 = a.payload.width := by
  have htag := tagWord_toNat a
  have hcolour := a.colour.code.isLt
  have hkind := a.payload.kind.isLt
  have hlabel := a.label.code.isLt
  have hwidth := a.payload.width.isLt
  refine ⟨?_, ?_, ?_, ?_⟩ <;> apply BitVec.eq_of_toNat_eq <;>
    rw [BitVec.extractLsb'_toNat, Nat.shiftRight_eq_div_pow, htag] <;> omega

theorem recordAt_pushRecord (s : State) (a : Annotation) :
    recordAt (s.pushRecord a).out s.outCount.toNat = a.view := by
  obtain ⟨hlabel, hcolour, hkind, hwidth⟩ := tagWord_fields a
  simp only [recordAt, wordAt_pushRecord_tag, wordAt_pushRecord_start, wordAt_pushRecord_stop, wordAt_pushRecord_value,
    hlabel, hcolour, hkind, hwidth, BitVec.toNat_ofNat, Annotation.view]

/-- Word 2 by the payload (30_encoding.md R68). -/
theorem tagWord_of_payload (a : Annotation) : a.tagWord.toNat = a.colour.code.toNat + 256 * a.label.code.toNat +
    (match a.payload with
      | .none => 0
      | .int _ width => 16 + 65536 * (width % 64)) := by
  rw [tagWord_toNat]
  cases a.payload with
  | none => rfl
  | int v width =>
    have hkind : (Payload.int v width).kind.toNat = 1 := rfl
    have hwidth : (Payload.int v width).width.toNat = width % 64 := BitVec.toNat_ofNat ..
    rw [hkind, hwidth]
    dsimp only
    omega

theorem payload_value (p : Payload) : p.value = (match p with
    | .none => 0
    | .int v _ => v) := by
  cases p <;> rfl

theorem sum_map_range_four (f : Nat → Nat) : ((List.range 4).map f).sum = f 0 + f 1 + f 2 + f 3 := by
  have hrange : List.range 4 = [0, 1, 2, 3] := rfl
  rw [hrange]
  simp only [List.map_cons, List.map_nil, List.sum_cons, List.sum_nil]
  omega

/-- A word of OUT is the number its bytes give, least significant first (20_memory.md R44). -/
theorem wordAt_eq_sum (m : Mem) (x : Nat) : (wordAt m x).toNat =
    ((List.range 4).map fun j => ((storeRead m (x + j)).getD 0).toNat * 256 ^ j).sum := by
  rw [sum_map_range_four, wordAt_toNat]
  simp only [byteAt, Nat.add_zero]
  omega

/-! ## Several annotations -/

/-- Emitting writes records in order as far as there is room, and goes on only if all found room (20_memory.md R47,
60 R139). -/
theorem emitAll_eq (k : State → State) : ∀ (as : List Annotation) (s : State), State.emitAll as s k =
    if s.outCount.toNat + as.length ≤ s.cfg.outCap.toNat ∨ as = [] then k (as.foldl State.pushRecord s)
    else ((as.take (s.cfg.outCap.toNat - s.outCount.toNat)).foldl State.pushRecord s).finish .outOverflow
  | [], s => (if_pos (.inr rfl)).symm
  | a :: as, s => by
    by_cases hr : s.Room
    · have hroom : s.outCount.toNat < s.cfg.outCap.toNat := hr
      have htake : (a :: as).take (s.cfg.outCap.toNat - s.outCount.toNat) =
          a :: as.take (s.cfg.outCap.toNat - (s.outCount.toNat + 1)) := by
        rw [show s.cfg.outCap.toNat - s.outCount.toNat = s.cfg.outCap.toNat - (s.outCount.toNat + 1) + 1 by omega,
          List.take_succ_cons]
      have hfits : s.outCount.toNat + 1 + as.length ≤ s.cfg.outCap.toNat ∨ as = [] ↔
          s.outCount.toNat + (a :: as).length ≤ s.cfg.outCap.toNat ∨ a :: as = [] := by
        cases as with
        | nil => simp; omega
        | cons => simp; omega
      rw [emitAll_room _ _ _ hr, emitAll_eq k as, pushRecord_count a hr, htake]
      exact if_congr hfits rfl rfl
    · have hfull : ¬ s.outCount.toNat < s.cfg.outCap.toNat := hr
      rw [emitAll_full _ _ _ hr, if_neg (by simp; omega), show s.cfg.outCap.toNat - s.outCount.toNat = 0 by omega]
      rfl

/-- Settles O15: `pushRecord` word by word, and `emitAll` by its list. -/
theorem emitWritesOneRecord : Obligations.EmitWritesOneRecord := by
  intro s a k
  refine ⟨emit_room a k, emit_full a k, fun hr => ⟨recordAt_pushRecord s a, pushRecord_count a hr⟩,
    ⟨wordAt_pushRecord_start s a, wordAt_pushRecord_stop s a, ?_, ?_⟩, wordAt_eq_sum, by decide, by decide,
    fun x hx => storeRead_pushRecord_other s a hx, rfl, fun as => emitAll_eq k as s⟩
  · exact (congrArg BitVec.toNat (wordAt_pushRecord_tag s a)).trans (tagWord_of_payload a)
  · exact (wordAt_pushRecord_value s a).trans (payload_value a.payload)

/-! ## Samples and edges -/

theorem smp_of_lt {s : State} (k : BitVec 2) {i : Nat} (hi : i < s.n) : s.smp k i =
    match sampleIn (s.chan k) i with
    | some b => .ok b
    | none => .error .unwrittenSample := if_pos hi

theorem smp_of_ge {s : State} (k : BitVec 2) {i : Nat} (hi : s.n ≤ i) : s.smp k i = .error .sampleOutOfRange :=
  if_neg (Nat.not_lt.2 hi)

/-- Settles O30: reads by cases on the byte, edges by cases on the two samples. -/
theorem edgePredicates : Obligations.EdgePredicates := by
  refine fun s k => ⟨⟨rfl, rfl, rfl, rfl⟩, fun i b hi => ?_, fun i hi hnone => ?_, fun i => smp_of_ge k,
    fun i b => ?_, fun i p c _ hp hc => ⟨(p, c), levels_of_smp hp hc, rfl, ?_⟩, fun l hl => ?_⟩
  · rw [smp_of_lt k hi]
    cases sampleIn (s.chan k) i <;> simp
  · rw [smp_of_lt k hi, hnone]
  · simp [sampleIn, eq_comm]
  · cases p <;> cases c <;> decide
  · obtain ⟨hp, hc⟩ := levels_eq_ok hl
    have hsame : l.1 = l.2 := Except.ok.inj (hp.symm.trans hc)
    simp [rise, fall, edge, hsame]

/-! ## Which samples count as written -/

/-- The bytes of samples 0 to n - 1 are written exactly when those samples are (20_memory.md R43). -/
theorem covered_iff (m : Mem) (n : Nat) : covered m n = true ↔ ∀ j, j < n → ∃ b, sampleIn m j = some b := by
  refine ⟨fun h j => sampleIn_of_covered h, fun h => List.all_eq_true.2 fun a ha => ?_⟩
  have ha' : 8 * a < n := by have := List.mem_range.1 ha; omega
  obtain ⟨b, hb⟩ := h (8 * a) ha'
  obtain ⟨v, hv, -⟩ := Option.map_eq_some_iff.1 hb
  rw [show 8 * a / 8 = a by omega] at hv
  rw [hv]
  rfl

theorem samplesWritten_iff (i : Instr) (s : State) : samplesWritten i s = true ↔
    (∀ k ∈ opSlots i, ∀ j, j < s.n → ∃ b, sampleIn (s.chan k) j = some b) ∧
      (opReadsAnalog i = true → ∀ j, j < s.n → ∃ v, s.ach j = some v) := by
  have hanalog : (!opReadsAnalog i || (List.range s.n).all fun a => (s.ach a).isSome) = true ↔
      (opReadsAnalog i = true → ∀ j, j < s.n → ∃ v, s.ach j = some v) := by
    cases opReadsAnalog i <;> simp [Option.isSome_iff_exists]
  rw [samplesWritten, Bool.and_eq_true, hanalog, List.all_eq_true]
  simp only [covered_iff]

/-- A missing sample stops the operation at its first micro-step (70 R151). -/
theorem exec_unwritten {i : Instr} {s : State} (hs : s.Started) (hl : legal i s = true)
    (hw : samplesWritten i s = false) : exec i s = .fault .unwrittenSample := by
  obtain ⟨fuel, hfuel⟩ : ∃ fuel, s.stepBound = fuel + 1 := ⟨_, rfl⟩
  have hm : move i s = .fault .unwrittenSample := (move_of_start i hs.2).trans (startMove_of_unwritten hl hw)
  have hstop (t : State) : move i s ≠ .next t := fun h => nomatch hm.symm.trans h
  rw [exec_eq_runMoves, hfuel, runMoves_succ_of_stop fuel hs.1 hstop, hm]

/-- Settles O21: the slots by definition, the fault by `samplesWritten_iff`. -/
theorem unwrittenSamplesFault : Obligations.UnwrittenSamplesFault := by
  refine ⟨fun _ _ => rfl, rfl, fun _ => rfl, fun _ _ => rfl, rfl, fun _ => rfl, fun _ _ _ _ => rfl,
    fun _ _ _ _ => ⟨rfl, rfl⟩, fun i => ?_, samplesWritten_iff, fun i s hs hl hmissing => exec_unwritten hs hl ?_⟩
  · cases i with
    | uart d par st au an => simp [opReadsAnalog]
    | edges | onewire | spi3 | spi4 | i2c | sync | i2s => simp [opReadsAnalog]
  · refine Bool.eq_false_iff.2 fun hw => ?_
    obtain ⟨hslots, hanalog⟩ := (samplesWritten_iff i s).1 hw
    obtain ⟨k, hk, j, hj, hnone⟩ | ⟨ha, j, hj, hnone⟩ := hmissing
    · obtain ⟨b, hb⟩ := hslots k hk j hj
      exact absurd (hnone.symm.trans hb) nofun
    · obtain ⟨v, hv⟩ := hanalog ha j hj
      exact absurd (hnone.symm.trans hv) nofun

/-! ## The end of an operation -/

/-- A memory that lists the addresses below n, one after another. -/
theorem storeRead_range_map {α : Type} (f : Nat → α) (n a : Nat) :
    storeRead ((List.range n).map fun x => (x, f x)) a = if a < n then some (f a) else none := by
  have hfrom : ∀ n k, storeRead ((List.range' k n).map fun x => (x, f x)) a =
      if k ≤ a ∧ a < k + n then some (f a) else none := by
    intro n
    induction n with
    | zero => intro k; rw [if_neg (by omega)]; rfl
    | succ n ih =>
      intro k
      rw [List.range'_succ, List.map_cons, storeRead, ih]
      split
      · next h => simp [h]
      · next h => exact if_congr (by omega) rfl rfl
  rw [List.range_eq_range', hfrom]
  simp

/-- Settles O25: `finish` is `finish_of_not_tainted` or `finish_spoiled`. -/
theorem spoiledOperationStillFinishes : Obligations.SpoiledOperationStillFinishes := by
  refine fun s r => ⟨fun ht => ?_, fun ht => ?_⟩
  · rw [State.finish_of_not_tainted ht]
    cases r <;> rfl
  · have hmod : (Config.freeWord s.free).toNat % 6 < 2 ^ 3 := by omega
    refine ⟨s.finish_busy r, s.finish_done r, finish_result_le s r, ?_⟩
    rw [finish_spoiled r ht]
    refine ⟨?_, rfl, rfl, rfl, rfl, rfl, fun a => storeRead_range_map _ _ a, rfl, rfl⟩
    simp only [State.scramble, BitVec.toNat_ofNat]
    exact Nat.mod_eq_of_lt hmod

end Sys2Proof.Machine
end

section
/-! The command word: encoder and decoder by arithmetic (O1, O2, O3, O4). -/

namespace Sys2Proof

open Machine (toNat_append_eq_add)

/-! ## Field codes -/

@[simp] theorem Filter.ofCode_code (f : Filter) : Filter.ofCode f.code = f := by cases f <;> rfl

@[simp] theorem Filter.code_ofCode : ∀ c : BitVec 2, (Filter.ofCode c).code = c := by decide

/-- Code 3 of FILT is the reserved one (30_encoding.md R58). -/
theorem Filter.ofCode_eq_reserved_iff : ∀ c : BitVec 2, Filter.ofCode c = .reserved ↔ c.toNat = 3 := by decide

@[simp] theorem Parity.ofCode_code (p : Parity) : Parity.ofCode p.code = p := by cases p <;> rfl

@[simp] theorem Parity.code_ofCode : ∀ c : BitVec 3, (Parity.ofCode c).code = c := by decide

/-- Codes 5 to 7 of PAR are the reserved ones (30_encoding.md R65). -/
theorem Parity.legal_ofCode_iff : ∀ c : BitVec 3, (Parity.ofCode c).legal = true ↔ c.toNat ≤ 4 := by decide

@[simp] theorem BitOrder.ofBit_bit (o : BitOrder) : BitOrder.ofBit o.bit = o := by cases o <;> rfl

@[simp] theorem BitOrder.bit_ofBit (b : Bool) : (BitOrder.ofBit b).bit = b := by cases b <;> rfl

@[simp] theorem ClockEdge.ofBit_bit (e : ClockEdge) : ClockEdge.ofBit e.bit = e := by cases e <;> rfl

@[simp] theorem ClockEdge.bit_ofBit (b : Bool) : (ClockEdge.ofBit b).bit = b := by cases b <;> rfl

/-! ## Fields of a word as numbers -/

theorem toNat_extractLsb' (w : Word) (start len : Nat) :
    (w.extractLsb' start len).toNat = w.toNat / 2 ^ start % 2 ^ len := by
  rw [BitVec.extractLsb'_toNat, Nat.shiftRight_eq_div_pow]

/-- The bits from `start` to the top of the word. -/
theorem toNat_extractLsb'_high (w : Word) {start len : Nat} (h : start + len = 32) :
    (w.extractLsb' start len).toNat = w.toNat / 2 ^ start := by
  have hlt : w.toNat < 2 ^ start * 2 ^ len := by rw [← Nat.pow_add, h]; exact w.isLt
  rw [toNat_extractLsb', Nat.mod_eq_of_lt (Nat.div_lt_of_lt_mul hlt)]

theorem toNat_getLsbD (w : Word) (k : Nat) : (w.getLsbD k).toNat = w.toNat / 2 ^ k % 2 := by
  rw [← BitVec.testBit_toNat, Nat.toNat_testBit]

/-! ## The encoder -/

theorem encode_edges_toNat (filt : Filter) (slot : BitVec 2) :
    (encode (.edges filt slot)).toNat = 2 ^ 4 * filt.code.toNat + 2 ^ 6 * slot.toNat := by
  simp only [encode, toNat_append_eq_add, BitVec.toNat_ofNat]
  omega

theorem encode_onewire_toNat : (encode .onewire).toNat = 1 := rfl

theorem encode_spi3_toNat (rwpos : BitVec 3) : (encode (.spi3 rwpos)).toNat = 2 + 2 ^ 4 * rwpos.toNat := by
  simp only [encode, toNat_append_eq_add, BitVec.toNat_ofNat]
  omega

theorem encode_spi4_toNat (cpol : Bool) (cpha : ClockEdge) :
    (encode (.spi4 cpol cpha)).toNat = 3 + 2 ^ 4 * cpol.toNat + 2 ^ 5 * cpha.bit.toNat := by
  simp only [encode, toNat_append_eq_add, BitVec.toNat_ofNat, BitVec.toNat_ofBool]
  omega

theorem encode_i2c_toNat : (encode .i2c).toNat = 4 := rfl

theorem encode_sync_toNat (cpha : ClockEdge) : (encode (.sync cpha)).toNat = 5 + 2 ^ 5 * cpha.bit.toNat := by
  simp only [encode, toNat_append_eq_add, BitVec.toNat_ofNat, BitVec.toNat_ofBool]
  omega

theorem encode_i2s_toNat (bpw : BitVec 6) (delay : BitVec 4) (order : BitOrder) (bedge : ClockEdge) :
    (encode (.i2s bpw delay order bedge)).toNat =
      6 + 2 ^ 4 * bpw.toNat + 2 ^ 10 * delay.toNat + 2 ^ 14 * order.bit.toNat + 2 ^ 15 * bedge.bit.toNat := by
  simp only [encode, toNat_append_eq_add, BitVec.toNat_ofNat, BitVec.toNat_ofBool]
  omega

theorem encode_uart_toNat (dbits : BitVec 4) (par : Parity) (stop2 auto analog : Bool) :
    (encode (.uart dbits par stop2 auto analog)).toNat = 7 + 2 ^ 4 * dbits.toNat + 2 ^ 8 * par.code.toNat +
      2 ^ 11 * stop2.toNat + 2 ^ 12 * auto.toNat + 2 ^ 13 * analog.toNat := by
  simp only [encode, toNat_append_eq_add, BitVec.toNat_ofNat, BitVec.toNat_ofBool]
  omega

/-- Settles O4: the encoder's numbers with each code's value put in, and the ten words by evaluation. -/
theorem commandWordFields : Obligations.CommandWordFields := by
  refine ⟨fun filt slot => ?_, encode_onewire_toNat, encode_spi3_toNat, fun cpol cpha => ?_, encode_i2c_toNat,
    fun cpha => ?_, fun bpw delay order bedge => ?_, fun d par stop2 auto analog => ?_,
    rfl, rfl, rfl, rfl, rfl, rfl, rfl, rfl, rfl, rfl⟩
  · rw [encode_edges_toNat, Nat.zero_add]
    cases filt <;> rfl
  · rw [encode_spi4_toNat]
    cases cpha <;> rfl
  · rw [encode_sync_toNat]
    cases cpha <;> rfl
  · rw [encode_i2s_toNat]
    cases order <;> cases bedge <;> rfl
  · rw [encode_uart_toNat]
    cases par <;> rfl

/-! ## The decoder -/

theorem whenZero_eq_ok_iff {n : Nat} {op : BitVec 4} {mbz : BitVec n} {i j : Instr} :
    whenZero op mbz i = .ok j ↔ mbz.toNat = 0 ∧ i = j := by
  have hzero : mbz = 0 ↔ mbz.toNat = 0 := by rw [← BitVec.toNat_inj]; rfl
  unfold whenZero
  split
  · next h => simp [hzero.1 h]
  · next h => simp [hzero.not.1 h]

/-- The bits of SYNC that must be 0 lie on both sides of CPHA (30_encoding.md R63). -/
theorem sync_mustBeZero_iff (w : Word) : (w.extractLsb' 6 26 ++ w.extractLsb' 4 1).toNat = 0 ↔
    w.toNat / 64 = 0 ∧ w.toNat / 16 % 2 = 0 := by
  rw [toNat_append_eq_add, toNat_extractLsb'_high w rfl, toNat_extractLsb']
  omega

/-- Which words decode and to what, said once: OP and the bits that must be 0 by arithmetic, the fields as the decoder
cuts them out (30_encoding.md R56 to R66). -/
theorem decode_eq_ok_iff (w : Word) (i : Instr) : decode w = .ok i ↔
    (w.toNat % 16 = 0 ∧ w.toNat / 256 = 0 ∧
      .edges (Filter.ofCode (w.extractLsb' 4 2)) (w.extractLsb' 6 2) = i) ∨
    (w.toNat % 16 = 1 ∧ w.toNat / 16 = 0 ∧ .onewire = i) ∨
    (w.toNat % 16 = 2 ∧ w.toNat / 128 = 0 ∧ .spi3 (w.extractLsb' 4 3) = i) ∨
    (w.toNat % 16 = 3 ∧ w.toNat / 64 = 0 ∧ .spi4 (w.getLsbD 4) (ClockEdge.ofBit (w.getLsbD 5)) = i) ∨
    (w.toNat % 16 = 4 ∧ w.toNat / 16 = 0 ∧ .i2c = i) ∨
    (w.toNat % 16 = 5 ∧ (w.toNat / 64 = 0 ∧ w.toNat / 16 % 2 = 0) ∧ .sync (ClockEdge.ofBit (w.getLsbD 5)) = i) ∨
    (w.toNat % 16 = 6 ∧ w.toNat / 65536 = 0 ∧
      .i2s (w.extractLsb' 4 6) (w.extractLsb' 10 4) (BitOrder.ofBit (w.getLsbD 14))
        (ClockEdge.ofBit (w.getLsbD 15)) = i) ∨
    (w.toNat % 16 = 7 ∧ w.toNat / 16384 = 0 ∧
      .uart (w.extractLsb' 4 4) (Parity.ofCode (w.extractLsb' 8 3)) (w.getLsbD 11) (w.getLsbD 12)
        (w.getLsbD 13) = i) := by
  have hop : (w.extractLsb' 0 4).toNat = w.toNat % 16 := by rw [toNat_extractLsb', Nat.pow_zero, Nat.div_one]; rfl
  unfold decode
  dsimp only
  rw [hop]
  split
  case h_9 =>
    simp only [imp_false] at *
    simp only [reduceCtorEq, *, false_and, or_false]
  all_goals
    next h =>
      simp only [whenZero_eq_ok_iff, sync_mustBeZero_iff, toNat_extractLsb'_high, h, Nat.reduceAdd,
        Nat.reducePow, Nat.reduceEqDiff, reduceCtorEq, true_and, false_and, or_false, false_or]

/-! ## Round trips -/

theorem extractLsb'_eq_of_toNat {w : Word} {start len : Nat} {x : BitVec len}
    (h : w.toNat / 2 ^ start % 2 ^ len = x.toNat) : w.extractLsb' start len = x :=
  BitVec.eq_of_toNat_eq ((toNat_extractLsb' w start len).trans h)

theorem getLsbD_eq_of_toNat {w : Word} {k : Nat} {b : Bool} (h : w.toNat / 2 ^ k % 2 = b.toNat) : w.getLsbD k = b :=
  Function.LeftInverse.injective Bool.ofNat_toNat ((toNat_getLsbD w k).trans h)

theorem decode_encode (i : Instr) : decode (encode i) = .ok i := by
  rw [decode_eq_ok_iff]
  cases i with
  | edges filt slot =>
    have hw := encode_edges_toNat filt slot
    refine .inl ⟨by omega, by omega, ?_⟩
    rw [extractLsb'_eq_of_toNat (x := filt.code) (by omega), extractLsb'_eq_of_toNat (x := slot) (by omega),
      Filter.ofCode_code]
  | onewire => exact .inr (.inl ⟨rfl, rfl, rfl⟩)
  | spi3 rwpos =>
    have hw := encode_spi3_toNat rwpos
    refine .inr (.inr (.inl ⟨by omega, by omega, ?_⟩))
    rw [extractLsb'_eq_of_toNat (x := rwpos) (by omega)]
  | spi4 cpol cpha =>
    have hw := encode_spi4_toNat cpol cpha
    have hcpol := cpol.toNat_lt
    have hcpha := cpha.bit.toNat_lt
    refine .inr (.inr (.inr (.inl ⟨by omega, by omega, ?_⟩)))
    rw [getLsbD_eq_of_toNat (b := cpol) (by omega), getLsbD_eq_of_toNat (b := cpha.bit) (by omega),
      ClockEdge.ofBit_bit]
  | i2c => exact .inr (.inr (.inr (.inr (.inl ⟨rfl, rfl, rfl⟩))))
  | sync cpha =>
    have hw := encode_sync_toNat cpha
    have hcpha := cpha.bit.toNat_lt
    refine .inr (.inr (.inr (.inr (.inr (.inl ⟨by omega, by omega, ?_⟩)))))
    rw [getLsbD_eq_of_toNat (b := cpha.bit) (by omega), ClockEdge.ofBit_bit]
  | i2s bpw delay order bedge =>
    have hw := encode_i2s_toNat bpw delay order bedge
    have horder := order.bit.toNat_lt
    have hbedge := bedge.bit.toNat_lt
    refine .inr (.inr (.inr (.inr (.inr (.inr (.inl ⟨by omega, by omega, ?_⟩))))))
    rw [extractLsb'_eq_of_toNat (x := bpw) (by omega), extractLsb'_eq_of_toNat (x := delay) (by omega),
      getLsbD_eq_of_toNat (b := order.bit) (by omega), getLsbD_eq_of_toNat (b := bedge.bit) (by omega),
      BitOrder.ofBit_bit, ClockEdge.ofBit_bit]
  | uart dbits par stop2 auto analog =>
    have hw := encode_uart_toNat dbits par stop2 auto analog
    have hstop2 := stop2.toNat_lt
    have hauto := auto.toNat_lt
    have hanalog := analog.toNat_lt
    refine .inr (.inr (.inr (.inr (.inr (.inr (.inr ⟨by omega, by omega, ?_⟩))))))
    rw [extractLsb'_eq_of_toNat (x := dbits) (by omega), extractLsb'_eq_of_toNat (x := par.code) (by omega),
      getLsbD_eq_of_toNat (b := stop2) (by omega), getLsbD_eq_of_toNat (b := auto) (by omega),
      getLsbD_eq_of_toNat (b := analog) (by omega), Parity.ofCode_code]

/-- Laying a word out in bytes and reading it back (20_memory.md R44). -/
theorem wordOfBytes_bytesOfWord (w : Word) :
    wordOfBytes (w.extractLsb' 0 8) (w.extractLsb' 8 8) (w.extractLsb' 16 8) (w.extractLsb' 24 8) = w := by
  refine BitVec.eq_of_toNat_eq ?_
  have hlt := w.isLt
  simp only [wordOfBytes, toNat_append_eq_add, toNat_extractLsb']
  omega

theorem decodeBytes_bytesOfWord {w : Word} {i : Instr} (h : decode w = .ok i) :
    decodeBytes (bytesOfWord w) = .ok (i, []) := by
  rw [bytesOfWord, decodeBytes, wordOfBytes_bytesOfWord, h]

/-- Settles O1: each row of `decode_eq_ok_iff` at the word the encoder gives. -/
theorem decodeOfEncode : Obligations.DecodeOfEncode :=
  fun i => ⟨decode_encode i, decodeBytes_bytesOfWord (decode_encode i)⟩

/-- Settles O2: in each row of `decode_eq_ok_iff` the encoder's number of the fields is the word's. -/
theorem encodeOfDecode : Obligations.EncodeOfDecode := by
  intro w i h
  refine BitVec.eq_of_toNat_eq ?_
  obtain ⟨hop, hmbz, rfl⟩ | ⟨hop, hmbz, rfl⟩ | ⟨hop, hmbz, rfl⟩ | ⟨hop, hmbz, rfl⟩ | ⟨hop, hmbz, rfl⟩ |
    ⟨hop, hmbz, rfl⟩ | ⟨hop, hmbz, rfl⟩ | ⟨hop, hmbz, rfl⟩ := (decode_eq_ok_iff w i).1 h
  all_goals
    simp only [encode_edges_toNat, encode_onewire_toNat, encode_spi3_toNat, encode_spi4_toNat, encode_i2c_toNat,
      encode_sync_toNat, encode_i2s_toNat, encode_uart_toNat, Filter.code_ofCode, Parity.code_ofCode,
      BitOrder.bit_ofBit, ClockEdge.bit_ofBit, toNat_extractLsb', toNat_getLsbD]
    omega

/-! ## Legal words -/

/-- A row of the decoder's table gives a well-formed instruction when its own instruction is one. -/
theorem exists_row_wf_iff {p q : Prop} {j : Instr} :
    (∃ i, (p ∧ q ∧ j = i) ∧ i.wf = true) ↔ p ∧ q ∧ j.wf = true := by
  simp only [and_assoc, exists_and_left, exists_eq_left']

theorem edges_wf_iff (c slot : BitVec 2) : (Instr.edges (Filter.ofCode c) slot).wf = true ↔ c.toNat ≠ 3 := by
  simp only [Instr.wf, decide_eq_true_eq, ne_eq, Filter.ofCode_eq_reserved_iff]

theorem i2s_wf_iff (bpw : BitVec 6) (delay : BitVec 4) (order : BitOrder) (bedge : ClockEdge) :
    (Instr.i2s bpw delay order bedge).wf = true ↔ 1 ≤ bpw.toNat ∧ bpw.toNat ≤ 32 := by
  simp only [Instr.wf, decide_eq_true_eq]

theorem uart_wf_iff (dbits : BitVec 4) (c : BitVec 3) (stop2 auto analog : Bool) :
    (Instr.uart dbits (Parity.ofCode c) stop2 auto analog).wf = true ↔
      5 ≤ dbits.toNat ∧ dbits.toNat ≤ 9 ∧ c.toNat ≤ 4 := by
  simp only [Instr.wf, Bool.and_eq_true, decide_eq_true_eq, Parity.legal_ofCode_iff, and_assoc]

/-- Settles O3: row by row, the decoder's conditions and the instruction's well-formedness by arithmetic. -/
theorem legalWordsAreTheTablesWords : Obligations.LegalWordsAreTheTablesWords := by
  intro w
  simp only [decode_eq_ok_iff, or_and_right, exists_or, exists_row_wf_iff]
  refine or_congr ?edges (or_congr ?onewire (or_congr ?spi3 (or_congr ?spi4 (or_congr ?i2c (or_congr ?sync
    (or_congr ?i2s ?uart))))))
  case edges => rw [edges_wf_iff, toNat_extractLsb']; omega
  case i2s => rw [i2s_wf_iff, toNat_extractLsb']; omega
  case uart => rw [uart_wf_iff, toNat_extractLsb', toNat_extractLsb']; omega
  case onewire | i2c | sync => simp only [Instr.wf, and_true]; omega
  case spi3 | spi4 => simp only [Instr.wf, and_true]

end Sys2Proof
end

section
/-! Which commands are legal, and what an illegal one does (O20). -/

namespace Sys2Proof.Machine

/-- The operands a command needs (30_encoding.md R66): BAUD only for UART without AUTO. -/
theorem latched_legal_iff (op : Latched) (i : Instr) : op.legal i = true ↔
    op.spNum ≠ 0 ∧ op.spDen ≠ 0 ∧ ((∃ d p st an, i = .uart d p st false an) → op.baud ≠ 0) := by
  have hpos (v : Word) : 1 ≤ v.toNat ↔ v ≠ 0 := by
    rw [Nat.one_le_iff_ne_zero, ne_eq, ne_eq, ← BitVec.toNat_inj]; rfl
  cases i with
  | uart dbits par stop2 auto analog => cases auto <;> simp [Latched.legal, hpos, and_assoc]
  | edges | onewire | spi3 | spi4 | i2c | sync | i2s => simp [Latched.legal, hpos]

theorem legal_iff (i : Instr) (s : State) : legal i s = true ↔
    i.wf = true ∧ s.op.spNum ≠ 0 ∧ s.op.spDen ≠ 0 ∧
      ((∃ d p st an, i = .uart d p st false an) → s.op.baud ≠ 0) := by
  rw [legal, Bool.and_eq_true, latched_legal_iff]

/-- The state a refused command leaves (60 R137). -/
theorem clearOutputs_refuse {s : State} (ht : s.tainted = false) :
    s.clearOutputs.refuse = { s with
      status := { busy := false, done := true, result := 3 }
      outCount := 0
      bpNum := 0
      bpDen := 1
      uartOffset := 0
      uartBslen := 0
      phase := .idle
      w := Work.initial
      finishedOnce := true } := State.finish_of_not_tainted (s := s.clearOutputs) ht .configError

/-- An illegal operation ends at its first micro-step (60 R136, R137). -/
theorem exec_illegal {i : Instr} {s : State} (hs : s.Started) (hl : legal i s = false) :
    exec i s = .next s.clearOutputs.refuse := by
  obtain ⟨hbusy, hstart⟩ := hs
  obtain ⟨fuel, hfuel⟩ : ∃ fuel, s.stepBound = fuel + 1 := ⟨_, rfl⟩
  have hm : move i s = .next s.clearOutputs.refuse := (move_of_start i hstart).trans (startMove_of_illegal hl)
  rw [exec_eq_runMoves, hfuel, runMoves_succ hbusy hm]
  exact runMoves_of_idle _ fuel (State.finish_busy _ .configError)

/-- A busy block whose command word does not decode refuses it at its next step (30_encoding.md R66, 60 R137). -/
theorem step_undecodable {s : State} {e : DecodeError} (hscript : s.script = []) (hbusy : s.status.busy = true)
    (hd : decode s.cmd = .error e) : step s = .next s.clearOutputs.refuse := by
  simp [step, stepOnce, blockRun, hscript, hbusy, hd]

/-- Settles O20: `legal_iff`, and the two refusals with the state they leave. -/
theorem illegalCommandIsRefused : Obligations.IllegalCommandIsRefused := by
  refine ⟨legal_iff, fun s hs ht => ⟨fun i hbad => ?_, fun e hd hscript => ?_⟩⟩
  · have hl : legal i s = false := by
      refine Bool.eq_false_iff.2 fun hlegal => ?_
      obtain ⟨hwf, hnum, hden, hbaud⟩ := (legal_iff i s).1 hlegal
      obtain hno | h0 | h0 | ⟨huart, h0⟩ := hbad
      · exact Bool.false_ne_true (hno.symm.trans hwf)
      · exact hnum h0
      · exact hden h0
      · exact hbaud huart h0
    rw [exec_illegal hs hl, clearOutputs_refuse ht]
  · rw [step_undecodable hscript hs.1 hd, clearOutputs_refuse ht]

end Sys2Proof.Machine
end

section
/-! The edge list of a slot (O31), and operations on constant lines (O19). -/

namespace Sys2Proof.Machine

/-! ## The edge list -/

/-- `match(FILT, k, i)` on the two levels; the reserved filter matches nowhere (40_edge_extractor.md R73). -/
theorem filterHit_iff (f : Filter) (p c : Bool) : filterHit f (p, c) = true ↔
    (f = .any ∧ p ≠ c) ∨ (f = .rising ∧ p = false ∧ c = true) ∨ (f = .falling ∧ p = true ∧ c = false) := by
  cases f with
  | any | rising | falling | reserved => revert p c; decide

theorem edgesAmong_sublist {s : State} {k : BitVec 2} {f : Filter} {is es : List Nat}
    (h : edgesAmong s k f is = .ok es) : es.Sublist is := by
  induction is generalizing es with
  | nil => cases h; exact .slnil
  | cons i is ih =>
    obtain ⟨l, rest, -, hrest, rfl⟩ := edgesAmong_cons h
    split
    · exact (ih hrest).cons_cons i
    · exact (ih hrest).cons i

theorem mem_edgesAmong {s : State} {k : BitVec 2} {f : Filter} {is es : List Nat} (h : edgesAmong s k f is = .ok es)
    (j : Nat) : j ∈ es ↔ j ∈ is ∧ ∃ l, s.levels k j = .ok l ∧ filterHit f l = true := by
  induction is generalizing es with
  | nil => cases h; simp
  | cons i is ih =>
    obtain ⟨l, rest, hl, hrest, rfl⟩ := edgesAmong_cons h
    have hhead : (j = i ∧ ∃ l', s.levels k j = .ok l' ∧ filterHit f l' = true) ↔ j = i ∧ filterHit f l = true :=
      and_congr_right fun hji => by simp [hji, hl]
    rw [List.mem_cons, or_and_right, ← ih hrest, hhead]
    by_cases hhit : filterHit f l = true <;> simp [hhit]

/-- An index at which the filter matches, in terms of the two samples (40_edge_extractor.md R72, R73). -/
theorem filterHit_levels_iff (s : State) (k : BitVec 2) (f : Filter) (i : Nat) :
    (∃ l, s.levels k i = .ok l ∧ filterHit f l = true) ↔
      ∃ p c, s.smp k (i - 1) = .ok p ∧ s.smp k i = .ok c ∧
        ((f = .any ∧ p ≠ c) ∨ (f = .rising ∧ p = false ∧ c = true) ∨ (f = .falling ∧ p = true ∧ c = false)) := by
  constructor
  · rintro ⟨⟨p, c⟩, hl, hhit⟩
    obtain ⟨hp, hc⟩ := levels_eq_ok hl
    exact ⟨p, c, hp, hc, (filterHit_iff f p c).1 hhit⟩
  · rintro ⟨p, c, hp, hc, hmatch⟩
    exact ⟨(p, c), levels_of_smp hp hc, (filterHit_iff f p c).2 hmatch⟩

/-- Settles O31: the list is the part of 1, …, N - 1 at which the filter matches. -/
theorem edgeListIsTheEdges : Obligations.EdgeListIsTheEdges := by
  intro s k f es h
  have hsub : es.Sublist (List.range' 1 (s.n - 1)) := edgesAmong_sublist h
  refine ⟨fun i => ?_, List.Pairwise.sublist hsub List.pairwise_lt_range', hsub.length_le.trans_eq List.length_range'⟩
  have hrange : i ∈ List.range' 1 (s.n - 1) ↔ 1 ≤ i ∧ i < s.n := by
    rw [List.mem_range'_1]
    omega
  rw [mem_edgesAmong h, filterHit_levels_iff, hrange, and_assoc]

/-! ## Constant lines -/

@[simp] theorem rise_same (b : Bool) : rise (b, b) = false := by cases b <;> rfl

@[simp] theorem fall_same (b : Bool) : fall (b, b) = false := by cases b <;> rfl

@[simp] theorem filterHit_same (f : Filter) (b : Bool) : filterHit f (b, b) = false := by
  cases f <;> simp [filterHit, edge]

@[simp] theorem edgeHit_same (e : ClockEdge) (b : Bool) : edgeHit e (b, b) = false := by
  cases e <;> simp [edgeHit]

theorem edgesStep_same (f : Filter) (b : Bool) (s : State) : edgesStep f (b, b) s = s := by simp [edgesStep]

/-- Idle waits for an edge; no watchdog runs there (41_onewire.md R79). -/
theorem owStep_same (b : Bool) {s : State} (h : s.w.ow = .idle) : owStep (b, b) s = s := by simp [owStep, h]

/-- Without an edge of nCS and without a sampling edge SPI does nothing (42_spi.md R88). -/
theorem spiStep_same (b : Bool) {sampling : Bool} (h : sampling = false) (bit : State → State) (s : State) :
    spiStep (b, b) sampling bit s = s := by simp [spiStep, h]

theorem i2cStep_same (b d : Bool) (s : State) : i2cStep (b, b) (d, d) s = s := by
  simp [i2cStep, startCond, stopCond]

theorem syncStep_same {sampling : Bool} (h : sampling = false) (d : Bool) (s : State) : syncStep sampling d s = s := by
  simp [syncStep, h]

theorem i2sFrameEdge_same (b : Bool) (s : State) : i2sFrameEdge (b, b) s = s := by simp [i2sFrameEdge]

theorem i2sBitEdge_same (e : ClockEdge) (b : Bool) (s : State) : i2sBitEdge e (b, b) s = s := by simp [i2sBitEdge]

theorem levels_of_constant {s : State} {k : BitVec 2} {b : Bool} (h : s.Constant k b) {i : Nat} (hi : i < s.n) :
    s.levels k i = .ok (b, b) := levels_of_smp (h (i - 1) (by omega)) (h i hi)

/-- On constant lines a step of the scan does nothing (40_edge_extractor.md R72); of 1-Wire, in Idle. -/
theorem scanStep_of_constant {i : Instr} {s : State} (hi : clocked i = true) (how : s.w.ow = .idle)
    (hconst : ∀ k ∈ opSlots i, ∃ b, s.Constant k b) (hlt : s.w.i < s.n) : scanStep i s = .ok s := by
  have hread (k : BitVec 2) (hk : k ∈ opSlots i) : ∃ b, s.levels k s.w.i = .ok (b, b) ∧ s.smp k s.w.i = .ok b := by
    obtain ⟨b, hb⟩ := hconst k hk
    exact ⟨b, levels_of_constant hb hlt, hb _ hlt⟩
  cases i with
  | edges filt slot =>
    obtain ⟨b, hb, -⟩ := hread slot (by simp [opSlots])
    simp only [scanStep, hb]
    exact congrArg Except.ok (edgesStep_same filt b s)
  | onewire =>
    obtain ⟨b, hb, -⟩ := hread 0 (by simp [opSlots])
    simp only [scanStep, hb]
    exact congrArg Except.ok (owStep_same b how)
  | spi3 rwpos =>
    obtain ⟨ncs, hncs, -⟩ := hread 0 (by simp [opSlots])
    obtain ⟨clk, hclk, -⟩ := hread 1 (by simp [opSlots])
    obtain ⟨d, -, hd⟩ := hread 2 (by simp [opSlots])
    simp only [scanStep, hncs, hclk, hd]
    exact congrArg Except.ok (spiStep_same ncs (rise_same clk) _ s)
  | spi4 cpol cpha =>
    obtain ⟨ncs, hncs, -⟩ := hread 0 (by simp [opSlots])
    obtain ⟨clk, hclk, -⟩ := hread 1 (by simp [opSlots])
    obtain ⟨mosi, -, hmosi⟩ := hread 2 (by simp [opSlots])
    obtain ⟨miso, -, hmiso⟩ := hread 3 (by simp [opSlots])
    simp only [scanStep, hncs, hclk, hmosi, hmiso]
    exact congrArg Except.ok (spiStep_same ncs (edgeHit_same cpha clk) _ s)
  | i2c =>
    obtain ⟨scl, hscl, -⟩ := hread 0 (by simp [opSlots])
    obtain ⟨sda, hsda, -⟩ := hread 1 (by simp [opSlots])
    simp only [scanStep, hscl, hsda]
    exact congrArg Except.ok (i2cStep_same scl sda s)
  | sync cpha =>
    obtain ⟨clk, hclk, -⟩ := hread 0 (by simp [opSlots])
    obtain ⟨d, -, hd⟩ := hread 1 (by simp [opSlots])
    simp only [scanStep, hclk, hd]
    exact congrArg Except.ok (syncStep_same (edgeHit_same cpha clk) d s)
  | i2s bpw delay order bedge =>
    obtain ⟨lr, hlr, -⟩ := hread 0 (by simp [opSlots])
    simp only [scanStep, hlr]
    exact congrArg Except.ok (i2sFrameEdge_same lr s)
  | uart => cases hi

/-- A clocked operation started at `s` that has met no edge: outputs cleared, working registers but the index as they
began. -/
def State.quietAt (s : State) (ph : Phase) (k : Nat) : State :=
  { s.clearOutputs with w := { Work.initial with i := k }, phase := ph }

/-- Where a clocked operation started at `s` may stand on constant lines: before its first micro-step, without an edge
met, or at its end. -/
inductive ConstantRun (s : State) : State → Prop
  | start : ConstantRun s s
  | quiet {ph : Phase} (k : Nat) (h : ph ≠ .start) : ConstantRun s (s.quietAt ph k)
  | ended : ConstantRun s (s.clearOutputs.finish .ok)

section Run
variable {i : Instr} {s t : State} {ph : Phase} {k : Nat}

theorem constantRun_firstState (hi : clocked i = true) (s : State) : ConstantRun s (firstState i s) := by
  cases i with
  | edges | onewire | spi3 | spi4 | i2c | sync | i2s => exact .quiet 1 nofun
  | uart => cases hi

/-- The end of a scan: the operation's end, the post-pass, or the next extraction of I2S. -/
theorem constantRun_scanEnd (hi : clocked i = true) (s : State) (ph : Phase) (k : Nat) :
    ConstantRun s (scanEnd i (s.quietAt ph k)) := by
  cases i with
  | edges | onewire | sync => exact .ended
  | spi3 | spi4 | i2c => exact .quiet k nofun
  | i2s => exact .quiet 1 nofun
  | uart => cases hi

/-- A micro-step of a scan that does nothing at the index, or that ends the scan. -/
theorem constantRun_scanMove {stepAt : State → Except Fault State} {atEnd : State → State}
    (hb : s.status.busy = true) (hph : ph ≠ .start) (hstep : k < s.n → stepAt (s.quietAt ph k) = .ok (s.quietAt ph k))
    (hend : ConstantRun s (atEnd (s.quietAt ph k))) (h : scanMove stepAt atEnd (s.quietAt ph k) = .next t) :
    ConstantRun s t := by
  obtain ⟨hlt, u, hu, rfl⟩ | ⟨-, rfl⟩ := scanMove_next h
  · cases hu.symm.trans (hstep hlt)
    rw [State.advance_of_busy (by exact hb)]
    exact .quiet (k + 1) hph
  · exact hend

/-- Without an edge of the frame clock there is no frame half, whatever the position (45_i2s.md R110; log entry 15). -/
theorem i2sMove_without_frames {bpw : BitVec 6} {delay : BitVec 4} {order : BitOrder} {bedge : ClockEdge}
    (hstart : s.phase ≠ .start) (hscan : s.phase ≠ .scan) (hbits : s.phase ≠ .bitEdges) (hfe : s.w.fe = []) :
    move (.i2s bpw delay order bedge) s = .next (s.finish .ok) := by
  cases hph : s.phase with
  | start | scan | bitEdges => contradiction
  | idle | widen | words | period | resample | search | walk =>
    simp only [move, i2sMove, hph, hfe]
    rfl

/-- The positions of I2S besides its scan: the bit clock has no edge either, and there is no frame half. -/
theorem constantRun_i2s {bpw : BitVec 6} {delay : BitVec 4} {order : BitOrder} {bedge : ClockEdge} {b : Bool}
    (hb : s.status.busy = true) (hclk : s.Constant 1 b) (hph : ph ≠ .start) (hscan : ph ≠ .scan)
    (h : move (.i2s bpw delay order bedge) (s.quietAt ph k) = .next t) : ConstantRun s t := by
  by_cases hbits : ph = .bitEdges
  · rw [i2sMove_bitEdges hbits] at h
    refine constantRun_scanMove hb hph (fun hlt => ?_) (.quiet (ph := .words) k nofun) h
    have hlevels : (s.quietAt ph k).levels 1 (s.quietAt ph k).w.i = .ok (b, b) := levels_of_constant hclk hlt
    simp only [hlevels]
    exact congrArg Except.ok (i2sBitEdge_same bedge b _)
  · cases (i2sMove_without_frames (s := s.quietAt ph k) hph hscan hbits rfl).symm.trans h
    exact .ended

theorem constantRun_widen : ConstantRun s (widenMove (s.quietAt ph k)) := by
  rw [widenMove_end (Nat.zero_le _)]
  exact .ended

theorem constantRun_move (hi : clocked i = true) (hs : s.Ready i) (hconst : ∀ k ∈ opSlots i, ∃ b, s.Constant k b)
    {u : State} (hu : ConstantRun s u) (hb : u.status.busy = true) (h : move i u = .next t) : ConstantRun s t := by
  have hbusy : s.status.busy = true := hs.1.1
  cases hu with
  | start =>
    cases (move_of_ready hs).symm.trans h
    exact constantRun_firstState hi s
  | ended => exact absurd ((State.finish_busy _ _).symm.trans hb) nofun
  | @quiet ph k hph =>
    by_cases hscan : scanning i ph = true
    · rw [move_of_scanning (s := s.quietAt ph k) hscan] at h
      exact constantRun_scanMove hbusy hph (scanStep_of_constant (s := s.quietAt ph k) hi rfl hconst)
        (constantRun_scanEnd hi s ph k) h
    · cases i with
      | edges | onewire | sync => simp [scanning, hph] at hscan
      | spi3 | spi4 | i2c =>
        have hwiden : ph = .widen := by simpa [scanning, hph] using hscan
        cases (move_of_widen rfl (s := s.quietAt ph k) hwiden).symm.trans h
        exact constantRun_widen
      | i2s =>
        obtain ⟨b, hclk⟩ := hconst 1 (by simp [opSlots])
        exact constantRun_i2s hbusy hclk hph (by simpa [scanning] using hscan) h
      | uart => cases hi

end Run

/-- Settles O19: the operation reaches its end, and on constant lines no micro-step leaves `ConstantRun`. -/
theorem constantLinesYieldNothing : Obligations.ConstantLinesYieldNothing := by
  intro i s hi hs ht hconst
  obtain ⟨t, hexec, hidle, -⟩ := everyOperationFinishes i s hs
  have hrun : ConstantRun s t :=
    runMoves_keeps (fun _ _ hb hu => constantRun_move hi hs hconst hu hb) _ s t .start (exec_eq_runMoves i s ▸ hexec)
  cases hrun with
  | start | quiet => exact absurd (hs.1.1.symm.trans hidle) nofun
  | ended => exact hexec.trans (congrArg _ (State.finish_of_not_tainted (s := s.clearOutputs) ht .ok))

end Sys2Proof.Machine
end

section
/-! 1-Wire: the exact micro-step in each state (O33 to O37), and the order of the annotations (O38). -/

namespace Sys2Proof.Machine

/-! ## The step in each state -/

theorem rise_iff (p c : Bool) : rise (p, c) = true ↔ p = false ∧ c = true := by simp [rise]

theorem fall_iff (p c : Bool) : fall (p, c) = true ↔ p = true ∧ c = false := by simp [fall]

section Step
variable {s : State}

theorem owStep_idle (h : s.w.ow = .idle) (p c : Bool) :
    owStep (p, c) s = if p = true ∧ c = false then s.owEnter .resetMasterPulse else s := by
  simp only [owStep, h, fall_iff]

theorem owStep_resetMasterPulse (h : s.w.ow = .resetMasterPulse) (p c : Bool) :
    owStep (p, c) s = if p = false ∧ c = true then owResetEnd s else s := by
  simp only [owStep, h, rise_iff]

theorem owStep_resetSlaveWait (h : s.w.ow = .resetSlaveWait) (p c : Bool) :
    owStep (p, c) s = if p = true ∧ c = false then owPresenceStart s else s := by
  simp only [owStep, h, fall_iff]

theorem owStep_resetSlavePulse (h : s.w.ow = .resetSlavePulse) (p c : Bool) :
    owStep (p, c) s = if p = false ∧ c = true then owPresenceEnd s else s := by
  simp only [owStep, h, rise_iff]

/-- The classification states behave as Active (41_onewire.md R83). -/
theorem owStep_active (h : s.w.ow = .active ∨ s.w.ow = .one ∨ s.w.ow = .masterWritingZero ∨ s.w.ow = .masterReadingZero)
    (p c : Bool) : owStep (p, c) s = if p = true ∧ c = false then s.owEnter .activeFallen else s := by
  obtain h | h | h | h := h <;> simp only [owStep, h, fall_iff]

theorem owStep_activeFallen (h : s.w.ow = .activeFallen) (p c : Bool) :
    owStep (p, c) s = if p = false ∧ c = true then owSlotEnd s else owWatchdog s := by
  simp only [owStep, h, rise_iff]

/-! ## One micro-step -/

/-- One index of the scan of ONEWIRE (41_onewire.md R77). -/
theorem move_onewire (hs : s.Scanning) {l : Bool × Bool} (hl : s.levels 0 s.w.i = .ok l) :
    move .onewire s = .next (owStep l s).advance := by
  obtain ⟨-, hphase, hi⟩ := hs
  have hstep : scanStep .onewire s = .ok (owStep l s) := by
    simp only [scanStep, hl]; rfl
  rw [move_of_scanning (by rw [hphase]; rfl), scanMove_of_lt hi hstep]

/-- A transition with no annotation (41_onewire.md R78). -/
theorem owEnter_advance (hb : s.status.busy = true) (q : OwState) :
    (s.owEnter q).advance = { s with w := { s.w with ow := q, entry := s.w.i, i := s.w.i + 1 } } :=
  State.advance_of_busy (s := s.owEnter q) hb

/-- A transition with an annotation over [s, i) (41_onewire.md R78). -/
theorem owEmit_advance (hb : s.status.busy = true) (l : Label) (c : Colour) (p : Payload) (q : OwState) :
    (s.owEmit l c p q).advance =
      s.emitThen { label := l, colour := c, start := s.w.entry, stop := s.w.i, payload := p }
        { s.w with ow := q, entry := s.w.i, i := s.w.i + 1 } := by
  rw [owEmit_eq, emitThen_advance _ _ hb]

/-- A timing violation or a time-out (60 R134). -/
theorem protocolError_advance (hb : s.status.busy = true) (l : Label) :
    (s.protocolError l).advance =
      s.emitThen { label := l, colour := .error, start := s.w.entry, stop := s.w.i, payload := .none }
        { s.w with ow := .idle, entry := s.w.i, i := s.w.i + 1 } :=
  owEmit_advance hb l .error .none .idle

/-- Waiting for the falling edge that enters `q` (41_onewire.md R79, R83). -/
theorem owEnter_on_fall_advance (hb : s.status.busy = true) (fell : Prop) [Decidable fell] (q : OwState) :
    (if fell then s.owEnter q else s).advance = { s with w :=
      if fell then { s.w with ow := q, entry := s.w.i, i := s.w.i + 1 } else { s.w with i := s.w.i + 1 } } := by
  split
  · exact owEnter_advance hb q
  · exact State.advance_of_busy hb

end Step

/-- Settles O33: both kinds of state only wait for a falling edge. -/
theorem oneWireFallingEdgeStarts : Obligations.OneWireFallingEdgeStarts := by
  intro s p c hs hl
  refine ⟨fun hq => ?_, fun hq => ?_⟩
  · rw [move_onewire hs hl, owStep_idle hq, owEnter_on_fall_advance hs.1]
  · rw [move_onewire hs hl, owStep_active hq, owEnter_on_fall_advance hs.1]

/-- Settles O34: `owResetEnd` at the rising edge. -/
theorem oneWireResetPulse : Obligations.OneWireResetPulse := by
  intro s p c hs hl hq
  have hb := hs.1
  rw [move_onewire hs hl, owStep_resetMasterPulse hq, owResetEnd]
  simp only [apply_ite State.advance, owEmit_advance hb, protocolError_advance hb, State.advance_of_busy hb]
  rfl

/-- Settles O35: `owPresenceStart` at the falling edge. -/
theorem oneWirePresenceWait : Obligations.OneWirePresenceWait := by
  intro s p c hs hl hq
  have hb := hs.1
  rw [move_onewire hs hl, owStep_resetSlaveWait hq, owPresenceStart]
  simp only [apply_ite State.advance, owEnter_advance hb, protocolError_advance hb, State.advance_of_busy hb]
  rfl

/-- Settles O36: `owPresenceEnd` at the rising edge. -/
theorem oneWirePresencePulse : Obligations.OneWirePresencePulse := by
  intro s p c hs hl hq
  have hb := hs.1
  rw [move_onewire hs hl, owStep_resetSlavePulse hq, owPresenceEnd]
  simp only [apply_ite State.advance, owEmit_advance hb, protocolError_advance hb, State.advance_of_busy hb]
  rfl

/-- Settles O37: `owSlotEnd` at the rising edge, `owWatchdog` otherwise. -/
theorem oneWireSlot : Obligations.OneWireSlot := by
  intro s p c hs hl hq
  have hb := hs.1
  rw [move_onewire hs hl, owStep_activeFallen hq, owSlotEnd, owWatchdog]
  simp only [apply_ite State.advance, owEmit_advance hb, protocolError_advance hb, State.advance_of_busy hb]
  rfl

/-! ## Non-empty spans, one after another -/

/-- Records 0 to n - 1 have non-empty spans, each ends no later than the next one starts, and none ends after `b`. -/
structure Apart (b : Nat) (m : Mem) (n : Nat) : Prop where
  span : ∀ k, k < n → recStart m k < recStop m k
  next : ∀ k, k + 1 < n → recStop m k ≤ recStart m (k + 1)
  le : ∀ k, k < n → recStop m k ≤ b

theorem Apart.mono {b b' : Nat} {m : Mem} {n : Nat} (h : Apart b m n) (hb : b ≤ b') : Apart b' m n :=
  ⟨h.span, h.next, fun k hk => (h.le k hk).trans hb⟩

/-- A record with a non-empty span that starts no earlier than those before it end. -/
theorem Apart.pushRecord {s : State} {a : Annotation} (h : Apart a.start s.out s.outCount.toNat) (hr : s.Room)
    (hspan : a.start < a.stop) (hstop : a.stop < 2 ^ 32) :
    Apart a.stop (s.pushRecord a).out (s.pushRecord a).outCount.toNat := by
  obtain ⟨hin, hnext, hle⟩ := h
  have hstart32 : a.start % 2 ^ 32 = a.start := Nat.mod_eq_of_lt (hspan.trans hstop)
  have hstop32 : a.stop % 2 ^ 32 = a.stop := Nat.mod_eq_of_lt hstop
  rw [pushRecord_count a hr]
  refine ⟨fun k hk => ?_, fun k hk => ?_, fun k hk => ?_⟩
  · rw [recStart_pushRecord s a (by omega), recStop_pushRecord s a (by omega), hstart32, hstop32]
    split
    · exact hspan
    · exact hin k (by omega)
  · rw [recStart_pushRecord s a (by omega), recStop_pushRecord s a (by omega), hstart32, if_neg (by omega)]
    split
    · exact hle k (by omega)
    · exact hnext k (by omega)
  · rw [recStop_pushRecord s a (by omega), hstop32]
    split
    · exact le_rfl
    · exact (hle k (by omega)).trans hspan.le

/-- Everything a step of 1-Wire can do (41_onewire.md R78): nothing, or a transition, with or without an annotation
over [s, i). -/
inductive OwStepped (s : State) : State → Prop
  | stays : OwStepped s s
  | enters (q : OwState) : OwStepped s (s.owEnter q)
  | emits (l : Label) (c : Colour) (p : Payload) (q : OwState) : OwStepped s (s.owEmit l c p q)

theorem owStep_owStepped (p c : Bool) (s : State) : OwStepped s (owStep (p, c) s) := by
  have herror (l : Label) : OwStepped s (s.protocolError l) := .emits l .error .none .idle
  cases hq : s.w.ow with
  | idle =>
    rw [owStep_idle hq]
    split
    exacts [.enters _, .stays]
  | active | one | masterWritingZero | masterReadingZero =>
    rw [owStep_active (by simp [hq])]
    split
    exacts [.enters _, .stays]
  | resetMasterPulse =>
    rw [owStep_resetMasterPulse hq, owResetEnd]
    split_ifs
    exacts [.emits .., herror _, .stays]
  | resetSlaveWait =>
    rw [owStep_resetSlaveWait hq, owPresenceStart]
    split_ifs
    exacts [.enters _, herror _, .stays]
  | resetSlavePulse =>
    rw [owStep_resetSlavePulse hq, owPresenceEnd]
    split_ifs
    exacts [.emits .., herror _, .stays]
  | activeFallen =>
    rw [owStep_activeFallen hq, owSlotEnd, owWatchdog]
    split_ifs
    exacts [.emits .., .emits .., .emits .., herror _, .stays]

/-- Between micro-steps of ONEWIRE: the records lie apart, and while the operation runs they end by the index of the
last transition, which the scan has passed (41_onewire.md R87). -/
structure OwApart (s : State) : Prop where
  tainted : s.tainted = false
  apart : ∃ b, Apart b s.out s.outCount.toNat
  running : s.status.busy = true → s.phase = .scan ∧ s.w.entry < s.w.i ∧ Apart s.w.entry s.out s.outCount.toNat

section OwApart
variable {s t : State}

theorem OwApart.finish {b : Nat} (ht : s.tainted = false) (h : Apart b s.out s.outCount.toNat) (r : Result) :
    OwApart (s.finish r) := by
  rw [State.finish_of_not_tainted ht]
  exact ⟨ht, ⟨b, h⟩, nofun⟩

theorem OwApart.goes (ht : s.tainted = false) (hphase : s.phase = .scan) (hi : s.w.entry < s.w.i)
    (h : Apart s.w.entry s.out s.outCount.toNat) : OwApart s :=
  ⟨ht, ⟨_, h⟩, fun _ => ⟨hphase, hi, h⟩⟩

/-- The step at an index: an annotation starts where the last transition was, and the next one not before here. -/
theorem OwStepped.apart {u : State} (hu : OwStepped s u) (h : OwApart s) (hb : s.status.busy = true)
    (hn : s.w.i < s.n) : OwApart u.advance := by
  obtain ⟨hphase, hi, hapart⟩ := h.running hb
  cases hu with
  | stays =>
    rw [State.advance_of_busy hb]
    exact .goes h.tainted hphase (Nat.lt_succ_of_lt hi) hapart
  | enters q =>
    rw [owEnter_advance hb]
    exact .goes h.tainted hphase (Nat.lt_succ_self _) (hapart.mono hi.le)
  | emits l c p q =>
    rw [owEmit_advance hb]
    by_cases hr : s.Room
    · rw [emitThen_room _ _ hr]
      have hrecord := Apart.pushRecord
        (a := { label := l, colour := c, start := s.w.entry, stop := s.w.i, payload := p })
        hapart hr hi (hn.trans (n_lt s))
      exact .goes h.tainted hphase (Nat.lt_succ_self _) hrecord
    · rw [emitThen_full _ _ hr]
      exact .finish h.tainted hapart _

theorem OwApart.step (h : OwApart s) (hb : s.status.busy = true) (hm : move .onewire s = .next t) : OwApart t := by
  obtain ⟨hphase, -, hapart⟩ := h.running hb
  rw [move_of_scanning (by rw [hphase]; rfl)] at hm
  obtain ⟨hn, u, hu, rfl⟩ | ⟨-, rfl⟩ := scanMove_next hm
  · obtain ⟨⟨p, c⟩, -, hstep⟩ := ok_of_bind hu
    cases hstep
    exact (owStep_owStepped p c s).apart h hb hn
  · exact .finish h.tainted hapart _

theorem owApart_firstState (ht : s.tainted = false) : OwApart (firstState .onewire s) :=
  .goes ht rfl Nat.one_pos ⟨nofun, nofun, nofun⟩

end OwApart

/-- Settles O38: every micro-step keeps `OwApart`, and each START lies below its END, which is at most the next START. -/
theorem oneWireStartsStrictlyIncrease : Obligations.OneWireStartsStrictlyIncrease := by
  intro s t hs ht h
  obtain ⟨fuel, hrun⟩ := exec_ready hs h
  obtain ⟨-, ⟨b, hapart⟩, -⟩ := runMoves_keeps (fun _ _ hb hu hm => OwApart.step hu hb hm) fuel _ t
    (owApart_firstState ht) (hrun fuel le_rfl)
  exact ⟨hapart.span, fun k hk => (hapart.span k (Nat.lt_of_succ_lt hk)).trans_le (hapart.next k hk)⟩

end Sys2Proof.Machine
end

section
/-! SPI: the exact micro-step at one index, framing (O39), bit and byte of SPI3 (O40) and of SPI4 (O41). -/

namespace Sys2Proof.Machine

/-! ## Sampling edge and shift register -/

theorem edgeHit_iff (e : ClockEdge) (l : Bool × Bool) :
    edgeHit e l = true ↔ l = (decide (e = .falling), decide (e = .rising)) := by
  obtain ⟨p, c⟩ := l
  cases e with
  | rising => simp [edgeHit, rise_iff]
  | falling => simp [edgeHit, fall_iff]

theorem shiftIn_toNat (acc : Byte) (b : Bool) : (shiftIn acc b).toNat = (2 * acc.toNat + b.toNat) % 256 := by
  have hdisjoint : acc <<< 1 &&& BitVec.zeroExtend 8 (BitVec.ofBool b) = 0#8 := by
    ext i
    cases i <;> simp
  rw [shiftIn, ← BitVec.add_eq_or_of_and_eq_zero _ _ hdisjoint]
  simp only [BitVec.toNat_add, BitVec.toNat_shiftLeft, Nat.shiftLeft_eq, BitVec.zeroExtend, BitVec.toNat_setWidth,
    BitVec.toNat_ofBool]
  omega

/-- The arithmetic of 10_state.md R35 fixes the register. -/
theorem eq_shiftIn {acc acc' : Byte} {b : Bool} (h : acc'.toNat = (2 * acc.toNat + b.toNat) % 256) :
    acc' = shiftIn acc b :=
  BitVec.eq_of_toNat_eq (h.trans (shiftIn_toNat acc b).symm)

/-! ## Framing, in the order of 42_spi.md R88 -/

section Framing
variable (s : State) (sampling : Bool) (bit : State → State)

theorem spiStep_fall : spiStep (true, false) sampling bit s = spiOpen s := rfl

theorem spiStep_rise : spiStep (false, true) sampling bit s = spiClose s := rfl

theorem spiStep_level (b : Bool) :
    spiStep (b, b) sampling bit s = if s.w.bus = .active ∧ sampling = true then bit s else s := by
  simp [spiStep]

theorem spiOpen_eq : spiOpen s =
    s.emitThen { label := .sMark, colour := .event, start := s.w.i, stop := s.w.i, payload := .none }
      { s.w with bus := .active, first := true, cnt := 0, acc := 0, mo := 0, mi := 0, rw := false, last := s.w.i } :=
  emit_work s s.w _ fun w =>
    { w with bus := .active, first := true, cnt := 0, acc := 0, mo := 0, mi := 0, rw := false, last := w.i }

variable {s}

theorem spiClose_active (h : s.w.bus = .active) : spiClose s =
    s.emitThen { label := .pMark, colour := .event, start := s.w.last, stop := s.w.i, payload := .none }
      { s.w with bus := .idle } := by
  simp only [spiClose, h]
  exact emit_work s s.w _ fun w => { w with bus := .idle }

theorem spiClose_idle (h : s.w.bus = .idle) : spiClose s = s := by simp only [spiClose, h]

end Framing

/-! ## One micro-step -/

section Move
variable {s : State} {ncs clk : Bool × Bool}

/-- The micro-step of an operation of one scan at an index that is left (10_state.md R17). -/
theorem move_of_scanStep {i : Instr} {u : State} (hi : oneScan i = true) (hs : s.Scanning)
    (hstep : scanStep i s = .ok u) : move i s = .next u.advance := by
  obtain ⟨-, hphase, hlt⟩ := hs
  rw [move_of_scanning (hphase ▸ scanning_of_oneScan hi), scanMove_of_lt hlt hstep]

/-- One index of the scan of SPI3 (42_spi.md R91). -/
theorem move_spi3 (rwpos : BitVec 3) {d : Bool} (hs : s.Scanning) (hncs : s.levels 0 s.w.i = .ok ncs)
    (hclk : s.levels 1 s.w.i = .ok clk) (hd : s.smp 2 s.w.i = .ok d) :
    move (.spi3 rwpos) s = .next (spiStep ncs (rise clk) (spi3Bit rwpos d) s).advance := by
  have hstep : scanStep (.spi3 rwpos) s = .ok (spiStep ncs (rise clk) (spi3Bit rwpos d) s) := by
    simp only [scanStep, hncs, hclk, hd]; rfl
  exact move_of_scanStep rfl hs hstep

/-- One index of the scan of SPI4, the same for either CPOL (42_spi.md R94, R95). -/
theorem move_spi4 (cpol : Bool) (cpha : ClockEdge) {mosi miso : Bool} (hs : s.Scanning)
    (hncs : s.levels 0 s.w.i = .ok ncs) (hclk : s.levels 1 s.w.i = .ok clk) (hmosi : s.smp 2 s.w.i = .ok mosi)
    (hmiso : s.smp 3 s.w.i = .ok miso) :
    move (.spi4 cpol cpha) s = .next (spiStep ncs (edgeHit cpha clk) (spi4Bit mosi miso) s).advance := by
  have hstep : scanStep (.spi4 cpol cpha) s = .ok (spiStep ncs (edgeHit cpha clk) (spi4Bit mosi miso) s) := by
    simp only [scanStep, hncs, hclk, hmosi, hmiso]; rfl
  exact move_of_scanStep rfl hs hstep

/-- Both decoders frame alike, whatever a bit does; the clock edge of SPI3 is the rising one (42_spi.md R88, R91). -/
theorem move_spi {i : Instr} {e : ClockEdge} (hi : (∃ r, i = .spi3 r ∧ e = .rising) ∨ ∃ cpol, i = .spi4 cpol e)
    (hs : s.Scanning) (hw : samplesWritten i s = true) (hncs : s.levels 0 s.w.i = .ok ncs)
    (hclk : s.levels 1 s.w.i = .ok clk) :
    ∃ bit, move i s = .next (spiStep ncs (edgeHit e clk) bit s).advance := by
  have hlt : s.w.i < s.n := hs.2.2
  obtain ⟨rwpos, rfl, rfl⟩ | ⟨cpol, rfl⟩ := hi
  · obtain ⟨d, hd⟩ := smp_of_samplesWritten (k := 2) hw (by simp [opSlots]) hlt
    exact ⟨_, move_spi3 rwpos hs hncs hclk hd⟩
  · obtain ⟨mosi, hmosi⟩ := smp_of_samplesWritten (k := 2) hw (by simp [opSlots]) hlt
    obtain ⟨miso, hmiso⟩ := smp_of_samplesWritten (k := 3) hw (by simp [opSlots]) hlt
    exact ⟨_, move_spi4 cpol e hs hncs hclk hmosi hmiso⟩

end Move

/-- Settles O39: the branches of `spiStep` that take no bit. -/
theorem spiFraming : Obligations.SpiFraming := by
  intro i e s p c sck hi hs hw hncs hclk
  have hb := hs.1
  obtain ⟨bit, hmove⟩ := move_spi hi hs hw hncs hclk
  rw [hmove]
  refine ⟨?_, ?_, ?_, ?_⟩
  · rintro ⟨rfl, rfl⟩
    rw [spiStep_fall, spiOpen_eq, emitThen_advance _ _ hb]
  · rintro ⟨rfl, rfl⟩ hbus
    rw [spiStep_rise, spiClose_active hbus, emitThen_advance _ _ hb]
  · rintro ⟨rfl, rfl⟩ hbus
    rw [spiStep_rise, spiClose_idle hbus, State.advance_of_busy hb]
  · rintro rfl hquiet
    have hno : ¬ (s.w.bus = .active ∧ edgeHit e sck = true) := by
      rintro ⟨hbus, hhit⟩
      obtain hidle | hne := hquiet
      · cases hbus.symm.trans hidle
      · exact hne ((edgeHit_iff e sck).1 hhit)
    rw [spiStep_level, if_neg hno, State.advance_of_busy hb]

/-! ## Bits and bytes -/

section Bits
variable {s : State}

/-- With seven bits in, the byte has begun before this index (42_spi.md R92, R96). -/
theorem bs_of_seventh (h : s.w.cnt = 7) : (if s.w.cnt = 0 then s.w.i else s.w.bs) = s.w.bs :=
  if_neg (by omega)

theorem spi3Bit_of_lt (h : s.w.cnt < 7) (rwpos : BitVec 3) (b : Bool) :
    spi3Bit rwpos b s = { s with w := spi3Shift b s.w } :=
  if_neg (show ¬ s.w.cnt + 1 = 8 by omega)

theorem spi3Bit_of_eq (h : s.w.cnt = 7) (rwpos : BitVec 3) (b : Bool) :
    spi3Bit rwpos b s = spi3Byte rwpos { s with w := spi3Shift b s.w } :=
  if_pos (show s.w.cnt + 1 = 8 by omega)

/-- The first byte of a transaction gives the address and the flag bit (42_spi.md R93). -/
theorem spi3Byte_first (rwpos : BitVec 3) {v : Work} (h : v.first = true) : spi3Byte rwpos { s with w := v } =
    s.emitThen { label := .address, colour := .address, start := v.bs, stop := v.i, payload := payloadOf v.acc 8 }
      { v with rw := v.acc.getLsbD rwpos.toNat, first := false, cnt := 0, acc := 0 } := by
  exact (if_pos h).trans <| emit_work s v _ fun w =>
    { w with rw := w.acc.getLsbD rwpos.toNat, first := false, cnt := 0, acc := 0 }

/-- A later byte is Read or Write by the flag bit kept (42_spi.md R93). -/
theorem spi3Byte_later (rwpos : BitVec 3) {v : Work} (h : v.first = false) : spi3Byte rwpos { s with w := v } =
    s.emitThen { label := if v.rw then .read else .write, colour := .data, start := v.bs, stop := v.i,
                 payload := payloadOf v.acc 8 } { v with cnt := 0, acc := 0 } := by
  have hfirst : ¬ v.first = true := by simp [h]
  exact (if_neg hfirst).trans <| emit_work s v _ fun w => { w with cnt := 0, acc := 0 }

theorem spi4Bit_of_lt (h : s.w.cnt < 7) (mosi miso : Bool) :
    spi4Bit mosi miso s = { s with w := spi4Shift mosi miso s.w } :=
  if_neg (show ¬ s.w.cnt + 1 = 8 by omega)

theorem spi4Bit_of_eq (h : s.w.cnt = 7) (mosi miso : Bool) :
    spi4Bit mosi miso s = spi4Byte { s with w := spi4Shift mosi miso s.w } :=
  if_pos (show s.w.cnt + 1 = 8 by omega)

/-- The annotation of a byte slot of SPI4 (42_spi.md R97), from the registers with the last bits shifted in. -/
def spi4Annotation (v : Work) : Annotation :=
  if v.first = true then
    { label := .command, colour := .control, start := v.bs, stop := v.i, payload := payloadOf v.mo 8 }
  else if v.mo ≠ 0x00 ∧ v.mo ≠ 0xFF then
    { label := .mOut, colour := .data, start := v.bs, stop := v.i, payload := payloadOf v.mo 8 }
  else { label := .sOut, colour := .data, start := v.bs, stop := v.i, payload := payloadOf v.mi 8 }

/-- Whichever annotation it is, what follows it is the same. -/
theorem spi4Byte_eq (s : State) (v : Work) : spi4Byte { s with w := v } =
    s.emitThen (spi4Annotation v) { v with first := false, cnt := 0, mo := 0, mi := 0 } := by
  have hemit (a : Annotation) := emit_work s v a fun w => { w with first := false, cnt := 0, mo := 0, mi := 0 }
  unfold spi4Byte spi4Annotation
  split
  · exact hemit _
  split
  · exact hemit _
  · exact hemit _

end Bits

/-- Settles O40: `spi3Bit` at the rising edge, with `spi3Byte` at the eighth bit. -/
theorem move_spi3Bit : Obligations.Spi3Bit := by
  intro rwpos s ncs b acc hs hncs hclk hd hbus hacc
  have hb := hs.1
  obtain rfl := eq_shiftIn hacc
  have hmove : move (.spi3 rwpos) s = .next (spi3Bit rwpos b s).advance := by
    rw [move_spi3 rwpos hs hncs hclk hd, spiStep_level, if_pos ⟨hbus, rfl⟩]
  rw [hmove]
  refine ⟨fun hcnt => ?_, fun hcnt hfirst => ?_, fun hcnt hlater => ?_⟩
  · rw [spi3Bit_of_lt hcnt, State.advance_of_busy (by exact hb)]
    rfl
  · rw [spi3Bit_of_eq hcnt, spi3Byte_first rwpos (by exact hfirst), emitThen_advance _ _ hb]
    simp only [spi3Shift, bs_of_seventh hcnt, payloadOf]
  · rw [spi3Bit_of_eq hcnt, spi3Byte_later rwpos (by exact hlater), emitThen_advance _ _ hb]
    simp only [spi3Shift, bs_of_seventh hcnt, payloadOf]

/-- Settles O41: `spi4Bit` at the edge CPHA selects, with `spi4Byte` at the eighth bit. -/
theorem move_spi4Bit : Obligations.Spi4Bit := by
  intro cpol cpha s ncs mosi miso mo mi hs hncs hclk hmosi hmiso hbus hmo hmi
  have hb := hs.1
  obtain rfl := eq_shiftIn hmo
  obtain rfl := eq_shiftIn hmi
  have hmove : move (.spi4 cpol cpha) s = .next (spi4Bit mosi miso s).advance := by
    rw [move_spi4 cpol cpha hs hncs hclk hmosi hmiso, spiStep_level, if_pos ⟨hbus, (edgeHit_iff _ _).2 rfl⟩]
  rw [hmove]
  refine ⟨fun hcnt => ?_, fun hcnt => ?_⟩
  · rw [spi4Bit_of_lt hcnt, State.advance_of_busy (by exact hb)]
    rfl
  · rw [spi4Bit_of_eq hcnt, spi4Byte_eq, emitThen_advance _ _ hb]
    simp only [spi4Annotation, spi4Shift, bs_of_seventh hcnt, payloadOf]

end Sys2Proof.Machine
end

section
/-! I2C: the exact micro-step at one index, start and stop conditions (O42), bits and groups (O43). -/

namespace Sys2Proof.Machine

/-! ## The two conditions, and the order of 43_i2c.md R101 -/

theorem startCond_iff (scl sda : Bool × Bool) :
    startCond scl sda = true ↔ scl = (true, true) ∧ sda = (true, false) := by
  obtain ⟨p, c⟩ := sda
  simp [startCond, fall_iff, Prod.ext_iff, and_comm, and_assoc]

theorem stopCond_iff (scl sda : Bool × Bool) :
    stopCond scl sda = true ↔ scl = (true, true) ∧ sda = (false, true) := by
  obtain ⟨p, c⟩ := sda
  simp [stopCond, rise_iff, Prod.ext_iff, and_comm, and_assoc]

section Step
variable {s : State} {scl sda : Bool × Bool}

theorem i2cStep_start (s : State) : i2cStep (true, true) (true, false) s = i2cStart s := rfl

theorem i2cStep_stop (s : State) : i2cStep (true, true) (false, true) s = i2cStop s := rfl

/-- With no condition, the clock and the bus state alone decide (43_i2c.md R101, R104). -/
theorem i2cStep_noCond (h : scl ≠ (true, true) ∨ sda.1 = sda.2) :
    i2cStep scl sda s = if s.w.bus = .active ∧ scl = (false, true) then i2cBit sda.2 s else s := by
  have hstart : ¬ startCond scl sda = true := by
    rw [startCond_iff]
    rintro ⟨rfl, rfl⟩
    simp at h
  have hstop : ¬ stopCond scl sda = true := by
    rw [stopCond_iff]
    rintro ⟨rfl, rfl⟩
    simp at h
  have hrise : rise scl = true ↔ scl = (false, true) := edgeHit_iff .rising scl
  simp only [i2cStep, if_neg hstart, if_neg hstop, hrise]

theorem i2cStart_eq (s : State) : i2cStart s =
    s.emitThen { label := .sMark, colour := .event, start := s.w.i, stop := s.w.i, payload := .none }
      { s.w with bus := .active, acc := 0, left := 8, first := true, last := s.w.i } :=
  emit_work s s.w _ fun w => { w with bus := .active, acc := 0, left := 8, first := true, last := w.i }

/-- Stop is SPI's end of a transaction (43_i2c.md R103, 42_spi.md R90). -/
theorem i2cStop_eq_spiClose (s : State) : i2cStop s = spiClose s := rfl

/-! ## One micro-step -/

/-- One index of the scan of I2C (43_i2c.md R99). -/
theorem move_i2c (hs : s.Scanning) (hscl : s.levels 0 s.w.i = .ok scl) (hsda : s.levels 1 s.w.i = .ok sda) :
    move .i2c s = .next (i2cStep scl sda s).advance := by
  have hstep : scanStep .i2c s = .ok (i2cStep scl sda s) := by
    simp only [scanStep, hscl, hsda]; rfl
  exact move_of_scanStep rfl hs hstep

end Step

/-- Settles O42: the branches of `i2cStep` that take no bit. -/
theorem i2cConditions : Obligations.I2cConditions := by
  intro s scl sda hs hscl hsda
  have hb := hs.1
  rw [move_i2c hs hscl hsda]
  refine ⟨?_, ?_, ?_, fun hno hquiet => ?_⟩
  · rintro rfl rfl
    rw [i2cStep_start, i2cStart_eq, emitThen_advance _ _ hb]
  · rintro rfl rfl hbus
    rw [i2cStep_stop, i2cStop_eq_spiClose, spiClose_active hbus, emitThen_advance _ _ hb]
  · rintro rfl rfl hbus
    rw [i2cStep_stop, i2cStop_eq_spiClose, spiClose_idle hbus, State.advance_of_busy hb]
  · have hnoBit : ¬ (s.w.bus = .active ∧ scl = (false, true)) := by
      rintro ⟨hactive, hclk⟩
      obtain hne | hidle := hquiet
      · exact hne hclk
      · cases hactive.symm.trans hidle
    rw [i2cStep_noCond hno, if_neg hnoBit, State.advance_of_busy hb]

/-! ## Bits and groups -/

section Bits
variable {s : State}

/-- One of the eight data bits (43_i2c.md R104). -/
theorem i2cBit_data (h : 0 < s.w.left) (b : Bool) : i2cBit b s =
    { s with w := { s.w with acc := shiftIn s.w.acc b, gs := if s.w.left = 8 then s.w.i else s.w.gs,
                             left := s.w.left - 1, last := s.w.i } } :=
  if_pos h

/-- The ACK bit: the group began before this index, and is reported (43_i2c.md R104). -/
theorem i2cBit_ack (h : s.w.left = 0) (b : Bool) : i2cBit b s =
    s.emitThen (i2cGroup b s.w) { s.w with left := 8, acc := 0, first := false, last := s.w.i } := by
  have hgs : groupStart s.w = s.w := by rw [groupStart, if_neg (by omega)]
  have hleft : ¬ s.w.left > 0 := by omega
  calc i2cBit b s
      = s.emitThen (i2cGroup b (groupStart s.w))
          { groupStart s.w with left := 8, acc := 0, first := false, last := (groupStart s.w).i } :=
        (if_neg hleft).trans <| emit_work s (groupStart s.w) _ fun w =>
          { w with left := 8, acc := 0, first := false, last := w.i }
    _ = _ := by rw [hgs]

/-- The R/W bit is the last bit of the address byte (43_i2c.md R105). -/
theorem getLsbD_zero_eq_true_iff (acc : Byte) : acc.getLsbD 0 = true ↔ ¬ acc.toNat % 2 = 0 := by
  rw [BitVec.getLsbD, Nat.testBit_zero, decide_eq_true_iff, Nat.mod_two_not_eq_zero]

theorem payloadOf_eq (acc : Byte) (width : Nat) : payloadOf acc width = .int (BitVec.ofNat 32 acc.toNat) width := by
  rw [payloadOf, BitVec.ofNat_toNat, BitVec.zeroExtend]

/-- The annotation by the numbers of 43_i2c.md R105. -/
theorem i2cGroup_eq (ack : Bool) (w : Work) : i2cGroup ack w =
    if w.first = true then
      { label := if w.acc.toNat % 2 = 0 then .wFlag else .rFlag
        colour := if ack = false then .address else .warning
        start := w.gs
        stop := w.i
        payload := .int (BitVec.ofNat 32 (w.acc.toNat / 2)) 7 }
    else
      { label := .data
        colour := if ack = false then .data else .warning
        start := w.gs
        stop := w.i
        payload := .int (BitVec.ofNat 32 w.acc.toNat) 8 } := by
  have hshift : (w.acc >>> 1).toNat = w.acc.toNat / 2 := by simp [Nat.shiftRight_eq_div_pow]
  cases ack <;>
    simp only [i2cGroup, getLsbD_zero_eq_true_iff, ite_not, payloadOf_eq, hshift, if_true, if_false, reduceCtorEq,
      Bool.false_eq_true]

end Bits

/-- Settles O43: `i2cBit` at the rising edge of SCL, with `i2cGroup` at the ninth bit. -/
theorem move_i2cBit : Obligations.I2cBit := by
  intro s q b acc hs hscl hsda hbus hacc
  have hb := hs.1
  obtain rfl := eq_shiftIn hacc
  have hmove : move .i2c s = .next (i2cBit b s).advance := by
    rw [move_i2c hs hscl hsda, i2cStep_noCond (.inl (by decide)), if_pos ⟨hbus, rfl⟩]
  rw [hmove]
  refine ⟨fun hleft => ?_, fun hleft => ?_⟩
  · rw [i2cBit_data hleft, State.advance_of_busy (by exact hb)]
  · rw [i2cBit_ack hleft, i2cGroup_eq, emitThen_advance _ _ hb]

end Sys2Proof.Machine
end

section
/-! SYNC reports one byte per eight sampling edges (O44). -/

namespace Sys2Proof.Machine

/-! ## One micro-step -/

section Move
variable {s : State}

/-- The annotation of a byte, from the registers with its last bit shifted in (44_sync_serial.md R109). -/
def syncAnnotation (v : Work) : Annotation :=
  { label := .data, colour := .data, start := v.bs, stop := v.i, payload := payloadOf v.acc 8 }

theorem syncStep_of_lt (h : s.w.cnt < 7) (b : Bool) : syncStep true b s = { s with w := syncShift b s.w } :=
  (if_pos rfl).trans (if_neg (show ¬ s.w.cnt + 1 = 8 by omega))

theorem syncStep_of_eq (h : s.w.cnt = 7) (b : Bool) : syncStep true b s =
    s.emitThen (syncAnnotation (syncShift b s.w)) { syncShift b s.w with cnt := 0, acc := 0 } := by
  have hcnt : (syncShift b s.w).cnt = 8 := congrArg Nat.succ h
  rw [syncStep, if_pos rfl]
  exact (if_pos hcnt).trans <| emit_work s (syncShift b s.w) _ fun w => { w with cnt := 0, acc := 0 }

/-- One index of the scan of SYNC (44_sync_serial.md R107). -/
theorem move_sync (cpha : ClockEdge) {clk : Bool × Bool} {d : Bool} (hs : s.Scanning)
    (hclk : s.levels 0 s.w.i = .ok clk) (hd : s.smp 1 s.w.i = .ok d) :
    move (.sync cpha) s = .next (syncStep (edgeHit cpha clk) d s).advance := by
  have hstep : scanStep (.sync cpha) s = .ok (syncStep (edgeHit cpha clk) d s) := by
    simp only [scanStep, hclk, hd]; rfl
  exact move_of_scanStep rfl hs hstep

theorem filterHit_edgeFilter (e : ClockEdge) (l : Bool × Bool) : filterHit (edgeFilter e) l = edgeHit e l := by
  cases e <;> rfl

end Move

theorem recordAt_pushRecord_other (s : State) (a : Annotation) {m : Nat} (h : m < s.outCount.toNat) :
    recordAt (s.pushRecord a).out m = recordAt s.out m := by
  have hword (x : Nat) (hx : x ≤ 16 * m + 12) : wordAt (s.pushRecord a).out x = wordAt s.out x :=
    wordAt_pushRecord_other s a (.inl (by omega))
  simp only [recordAt, hword (16 * m) (by omega), hword (16 * m + 4) (by omega), hword (16 * m + 8) (by omega),
    hword (16 * m + 12) le_rfl]

/-! ## The bits of a byte -/

section Bits
variable {s : State} {es : List Nat} {k n : Nat} {b : Nat → Bool} {v : Work}

/-- DATA at the `n` sampling edges from number `k` of the list `es` on is `b` (44_sync_serial.md R109). -/
def DataAt (s : State) (es : List Nat) (k n : Nat) (b : Nat → Bool) : Prop :=
  ∀ j, j < n → s.smp 1 (es.getD (k + j) 0) = .ok (b j)

/-- The record of byte `m`, whose bits are `b` (44_sync_serial.md R109, 30_encoding.md R68). -/
def byteRecord (es : List Nat) (m : Nat) (b : Nat → Bool) : RecordView :=
  { label := 0x13, colour := 2, start := es.getD (8 * m) 0, stop := es.getD (8 * m + 7) 0, kind := 1, width := 8,
    value := BitVec.ofNat 32 ((List.range 8).map fun j => (b j).toNat * 2 ^ (7 - j)).sum }

/-- The bit registers hold DATA at the `cnt` sampling edges from number `k` on (10_state.md R30, R35). -/
structure BitsFrom (s : State) (es : List Nat) (k : Nat) (v : Work) : Prop where
  begun : 0 < v.cnt → v.bs = es.getD k 0
  value : ∀ b, DataAt s es k v.cnt b → v.acc.toNat = msbValue ((List.range v.cnt).map b) % 256

theorem BitsFrom.of_none (hcnt : v.cnt = 0) (hacc : v.acc = 0) : BitsFrom s es k v :=
  ⟨fun h => by omega, fun b _ => by rw [hcnt, hacc]; rfl⟩

/-- DATA at the next sampling edge is shifted in (44_sync_serial.md R109). -/
theorem BitsFrom.shift (h : BitsFrom s es k v) {d : Bool} (hedge : es.getD (k + v.cnt) 0 = v.i)
    (hd : s.smp 1 v.i = .ok d) : BitsFrom s es k (syncShift d v) := by
  refine ⟨fun _ => ?_, fun b hb => ?_⟩
  · show (if v.cnt = 0 then v.i else v.bs) = es.getD k 0
    split
    · next hzero => rw [← hedge, hzero, Nat.add_zero]
    · exact h.begun (by omega)
  · have hlast : b v.cnt = d := by
      have hread := hb v.cnt (Nat.lt_succ_self _)
      rw [hedge, hd] at hread
      exact (Except.ok.inj hread).symm
    have hacc := h.value b fun j hj => hb j (Nat.lt_succ_of_lt hj)
    show (shiftIn v.acc d).toNat = msbValue ((List.range (v.cnt + 1)).map b) % 256
    rw [shiftIn_toNat, List.range_succ, List.map_append, List.map_singleton, msbValue_append, hlast]
    omega

theorem msbValue_lt (bs : List Bool) : msbValue bs < 2 ^ bs.length := by
  induction bs using List.reverseRecOn with
  | nil => decide
  | append_singleton bs b ih =>
    have hbit := b.toNat_lt
    rw [msbValue_append, List.length_append, List.length_singleton, Nat.pow_succ]
    omega

/-- Eight bits make the byte's record; its span is within the 32 bits of an index (00_scope.md R8). -/
theorem BitsFrom.view {m : Nat} (h : BitsFrom s es (8 * m) v) (hcnt : v.cnt = 8) (hstop : v.i = es.getD (8 * m + 7) 0)
    (hstart32 : v.bs < 2 ^ 32) (hstop32 : v.i < 2 ^ 32) (hb : DataAt s es (8 * m) 8 b) :
    (syncAnnotation v).view = byteRecord es m b := by
  have hacc := h.value b (hcnt ▸ hb)
  have hlt : msbValue ((List.range 8).map b) < 256 := (msbValue_lt _).trans_eq (by simp)
  rw [hcnt, Nat.mod_eq_of_lt hlt, msbValue_range] at hacc
  simp only [Annotation.view, syncAnnotation, byteRecord, payloadOf_eq, Payload.kind, Payload.width, Payload.value,
    Nat.mod_eq_of_lt hstart32, Nat.mod_eq_of_lt hstop32, ← hstop, ← h.begun (by omega), hacc]
  rfl

end Bits

/-! ## The scan -/

section Scan
variable {cpha : ClockEdge} {s u : State} {es : List Nat}

/-- Records 0 to `n` - 1 are those of bytes 0 to `n` - 1 (44_sync_serial.md R109). -/
def BytesAt (s : State) (es : List Nat) (out : Mem) (n : Nat) : Prop :=
  ∀ m b, m < n → DataAt s es (8 * m) 8 b → recordAt out m = byteRecord es m b

/-- The record of the next byte. -/
theorem BytesAt.pushRecord {a : Annotation} (h : BytesAt s es u.out u.outCount.toNat)
    (ha : ∀ b, DataAt s es (8 * u.outCount.toNat) 8 b → a.view = byteRecord es u.outCount.toNat b) :
    BytesAt s es (u.pushRecord a).out (u.outCount.toNat + 1) := by
  intro m b hm hb
  obtain hlt | rfl : m < u.outCount.toNat ∨ m = u.outCount.toNat := Nat.lt_succ_iff_lt_or_eq.1 hm
  · rw [recordAt_pushRecord_other u a hlt]
    exact h m b hlt hb
  · rw [recordAt_pushRecord]
    exact ha b hb

/-- How many sampling edges have been taken: those of the bytes reported and those that wait in `cnt`. -/
def edgesTaken (u : State) : Nat := 8 * u.outCount.toNat + u.w.cnt

/-- In the scan of SYNC, started at `s` with the sampling edges `es`: the first of them are reported or wait in the bit
registers, and the edges that are left are those from the current index on (44_sync_serial.md R109). -/
structure SyncScan (cpha : ClockEdge) (s : State) (es : List Nat) (u : State) : Prop where
  phase : u.phase = .scan
  tainted : u.tainted = false
  kept : u.kept = s.kept
  waiting : u.w.cnt ≤ 7
  room : u.outCount.toNat ≤ s.cfg.outCap.toNat
  taken : edgesTaken u ≤ es.length
  bits : BitsFrom s es (8 * u.outCount.toNat) u.w
  bytes : BytesAt s es u.out u.outCount.toNat
  rest : edgesAmong s 0 (edgeFilter cpha) (List.range' u.w.i (s.n - u.w.i)) = .ok (es.drop (edgesTaken u))

/-- How SYNC ends (44_sync_serial.md R107, R109, 60 R139). -/
structure SyncReported (s : State) (es : List Nat) (t : State) : Prop where
  result : t.status.result = if es.length / 8 ≤ s.cfg.outCap.toNat then 0 else 4
  count : t.outCount.toNat = min (es.length / 8) s.cfg.outCap.toNat
  bytes : BytesAt s es t.out t.outCount.toNat

theorem SyncScan.fields (h : SyncScan cpha s es u) : u.n = s.n ∧ u.cfg = s.cfg ∧
    ∀ k j, u.smp k j = s.smp k j ∧ u.levels k j = s.levels k j := by
  have hfield {α : Type} (f : State → α) : f u.kept = f s.kept := congrArg f h.kept
  exact ⟨hfield State.n, hfield State.cfg, fun k j => ⟨hfield (·.smp k j), hfield (·.levels k j)⟩⟩

/-- A byte is complete and OUT is full. -/
theorem SyncScan.overflow (h : SyncScan cpha s es u) (hfull : ¬ u.outCount.toNat < s.cfg.outCap.toNat)
    (hbyte : 8 * u.outCount.toNat + 8 ≤ es.length) : SyncReported s es (u.finish .outOverflow) := by
  have hroom := h.room
  rw [State.finish_of_not_tainted h.tainted]
  refine ⟨?_, ?_, h.bytes⟩
  · rw [if_neg (by omega)]; rfl
  · show u.outCount.toNat = _
    omega

/-- No sampling edge is left; the bits that wait are discarded. -/
theorem SyncScan.ends (h : SyncScan cpha s es u) (hnone : es.drop (edgesTaken u) = []) :
    SyncReported s es (u.finish .ok) := by
  have hroom := h.room
  have hwaiting := h.waiting
  have htaken : edgesTaken u = es.length := Nat.le_antisymm h.taken (List.drop_eq_nil_iff.1 hnone)
  have hcount : es.length / 8 = u.outCount.toNat := by unfold edgesTaken at htaken; omega
  rw [State.finish_of_not_tainted h.tainted]
  refine ⟨?_, ?_, h.bytes⟩
  · rw [hcount, if_pos hroom]; rfl
  · show u.outCount.toNat = _
    rw [hcount, Nat.min_eq_left hroom]

/-- An index without a sampling edge. -/
theorem SyncScan.skip (h : SyncScan cpha s es u)
    (hrest : edgesAmong s 0 (edgeFilter cpha) (List.range' (u.w.i + 1) (s.n - (u.w.i + 1))) =
      .ok (es.drop (edgesTaken u))) :
    SyncScan cpha s es { u with w := { u.w with i := u.w.i + 1 } } :=
  ⟨h.phase, h.tainted, h.kept, h.waiting, h.room, h.taken, ⟨h.bits.begun, h.bits.value⟩, h.bytes, hrest⟩

section Edge
variable {d : Bool} {rest : List Nat} (h : SyncScan cpha s es u) (hd : s.smp 1 u.w.i = .ok d)
  (hrest : edgesAmong s 0 (edgeFilter cpha) (List.range' (u.w.i + 1) (s.n - (u.w.i + 1))) = .ok rest)
  (hdrop : es.drop (edgesTaken u) = u.w.i :: rest)
include hdrop

/-- The next sampling edge is at the current index, and `rest` is what follows it. -/
theorem edgesTaken_next : edgesTaken u < es.length ∧ es.getD (edgesTaken u) 0 = u.w.i ∧
    es.drop (edgesTaken u + 1) = rest := by
  have hmore := lt_length_of_drop_eq_cons hdrop
  have hsplit := List.drop_eq_getElem_cons hmore
  rw [hdrop] at hsplit
  obtain ⟨hhead, htail⟩ := List.cons.inj hsplit
  exact ⟨hmore, (List.getD_eq_getElem _ _ hmore).trans hhead.symm, htail.symm⟩

include h hd hrest

/-- A sampling edge that does not complete a byte. -/
theorem SyncScan.bit (hcnt : u.w.cnt < 7) :
    SyncScan cpha s es { u with w := { syncShift d u.w with i := u.w.i + 1 } } := by
  obtain ⟨hmore, hedge, htail⟩ := edgesTaken_next hdrop
  obtain ⟨hbegun, hvalue⟩ := h.bits.shift hedge hd
  exact ⟨h.phase, h.tainted, h.kept, hcnt, h.room, hmore, ⟨hbegun, hvalue⟩, h.bytes, htail ▸ hrest⟩

/-- A sampling edge that completes a byte, with room for its record. -/
theorem SyncScan.byte (h32 : ∀ k, es.getD k 0 < 2 ^ 32) (hcnt : u.w.cnt = 7) (hr : u.Room) :
    SyncScan cpha s es { u.pushRecord (syncAnnotation (syncShift d u.w)) with
      w := { syncShift d u.w with cnt := 0, acc := 0, i := u.w.i + 1 } } := by
  obtain ⟨hmore, hedge, htail⟩ := edgesTaken_next hdrop
  have htaken : edgesTaken u = 8 * u.outCount.toNat + 7 := by rw [edgesTaken, hcnt]
  rw [htaken] at hmore hedge htail
  have hbits := h.bits.shift (hcnt ▸ hedge) hd
  have hview (b : Nat → Bool) (hb : DataAt s es (8 * u.outCount.toNat) 8 b) :
      (syncAnnotation (syncShift d u.w)).view = byteRecord es u.outCount.toNat b :=
    hbits.view (congrArg Nat.succ hcnt) hedge.symm (hbits.begun (Nat.succ_pos _) ▸ h32 _) (hedge ▸ h32 _) hb
  have hbytes := h.bytes.pushRecord hview
  have hcount := pushRecord_count (syncAnnotation (syncShift d u.w)) hr
  have hphase : (u.pushRecord (syncAnnotation (syncShift d u.w))).phase = .scan := h.phase
  have htaint : (u.pushRecord (syncAnnotation (syncShift d u.w))).tainted = false := h.tainted
  have hkept : (u.pushRecord (syncAnnotation (syncShift d u.w))).kept = s.kept := h.kept
  have hroom : u.outCount.toNat + 1 ≤ s.cfg.outCap.toNat := h.fields.2.1 ▸ hr
  -- Under its own name, so that no unification below looks into the words `pushRecord` writes.
  generalize u.pushRecord (syncAnnotation (syncShift d u.w)) = t at hbytes hcount hphase htaint hkept ⊢
  rw [← hcount] at hbytes hroom
  have htaken' : 8 * t.outCount.toNat + 0 = 8 * u.outCount.toNat + 7 + 1 := by omega
  rw [← htail, ← htaken'] at hrest
  exact ⟨hphase, htaint, hkept, Nat.zero_le _, hroom, htaken'.trans_le hmore, .of_none rfl rfl, hbytes, hrest⟩

end Edge

/-- A micro-step of the scan goes on at the next index, or ends the operation. -/
def SyncGoes (cpha : ClockEdge) (s : State) (es : List Nat) (u t : State) : Prop :=
  (t.status.busy = true → SyncScan cpha s es t ∧ s.n - t.w.i < s.n - u.w.i) ∧
    (t.status.busy = false → SyncReported s es t)

theorem SyncGoes.of_finish {r : Result} (h : SyncReported s es (u.finish r)) : SyncGoes cpha s es u (u.finish r) :=
  ⟨fun hbusy => absurd ((u.finish_busy r).symm.trans hbusy) nofun, fun _ => h⟩

theorem SyncGoes.of_scan {t : State} (h : SyncScan cpha s es t) (hb : t.status.busy = true)
    (hi : t.w.i = u.w.i + 1) (hlt : u.w.i < s.n) : SyncGoes cpha s es u t :=
  ⟨fun _ => ⟨h, by omega⟩, fun hidle => absurd (hb.symm.trans hidle) nofun⟩

/-- The step at an index: no sampling edge, a bit, or a byte, which ends the operation if OUT was full. -/
theorem SyncScan.index_goes (h : SyncScan cpha s es u) (h32 : ∀ k, es.getD k 0 < 2 ^ 32)
    (hb : u.status.busy = true) (hi : u.w.i < s.n) {clk : Bool × Bool} {d : Bool}
    (hclk : s.levels 0 u.w.i = .ok clk) (hd : s.smp 1 u.w.i = .ok d) :
    SyncGoes cpha s es u (syncStep (edgeHit cpha clk) d u).advance := by
  have hrange : List.range' u.w.i (s.n - u.w.i) = u.w.i :: List.range' (u.w.i + 1) (s.n - (u.w.i + 1)) := by
    rw [show s.n - u.w.i = s.n - (u.w.i + 1) + 1 by omega, List.range'_succ]
  obtain ⟨clk', rest, hclk', hrest, hdrop⟩ := edgesAmong_cons (hrange ▸ h.rest)
  cases hclk.symm.trans hclk'
  rw [filterHit_edgeFilter] at hdrop
  cases hhit : edgeHit cpha clk with
  | false =>
    rw [hhit, if_neg nofun] at hdrop
    rw [syncStep_same rfl, State.advance_of_busy hb]
    exact .of_scan (h.skip (hdrop ▸ hrest)) hb rfl hi
  | true =>
    rw [hhit, if_pos rfl] at hdrop
    obtain hcnt | hcnt : u.w.cnt < 7 ∨ u.w.cnt = 7 := Nat.lt_or_eq_of_le h.waiting
    · rw [syncStep_of_lt hcnt, State.advance_of_busy (by exact hb)]
      exact .of_scan (h.bit hd hrest hdrop hcnt) hb rfl hi
    · rw [syncStep_of_eq hcnt, emitThen_advance _ _ hb]
      by_cases hr : u.Room
      · rw [emitThen_room _ _ hr]
        exact .of_scan (h.byte hd hrest hdrop h32 hcnt hr) hb rfl hi
      · have hbyte : 8 * u.outCount.toNat + 8 ≤ es.length := by
          have hmore := (edgesTaken_next hdrop).1
          rw [edgesTaken, hcnt] at hmore
          exact hmore
        rw [emitThen_full _ _ hr]
        exact .of_finish (h.overflow (h.fields.2.1 ▸ hr) hbyte)

theorem SyncScan.step (h : SyncScan cpha s es u) (hs : s.Ready (.sync cpha)) (h32 : ∀ k, es.getD k 0 < 2 ^ 32)
    (hb : u.status.busy = true) : ∃ t, move (.sync cpha) u = .next t ∧ SyncGoes cpha s es u t := by
  obtain ⟨hn, -, hread⟩ := h.fields
  obtain ⟨-, -, hwritten⟩ := hs
  by_cases hi : u.w.i < s.n
  · obtain ⟨clk, hclk⟩ := levels_of_samplesWritten (k := 0) hwritten (by simp [opSlots]) hi
    obtain ⟨d, hd⟩ := smp_of_samplesWritten (k := 1) hwritten (by simp [opSlots]) hi
    have hmove := move_sync cpha ⟨hb, h.phase, hn ▸ hi⟩ ((hread 0 _).2.trans hclk) ((hread 1 _).1.trans hd)
    exact ⟨_, hmove, h.index_goes h32 hb hi hclk hd⟩
  · have hmove : move (.sync cpha) u = _ := move_of_scanning (by rw [h.phase]; rfl)
    have hnone : es.drop (edgesTaken u) = [] := by
      have hrest := h.rest
      rw [show s.n - u.w.i = 0 by omega] at hrest
      exact (Except.ok.inj hrest).symm
    exact ⟨_, hmove.trans (scanMove_of_ge (hn ▸ Nat.le_of_not_lt hi)), .of_finish (h.ends hnone)⟩

end Scan

/-- An entry of an edge list is a 32-bit index (40_edge_extractor.md R74). -/
theorem edgeList_getD_lt {s : State} {k : BitVec 2} {f : Filter} {es : List Nat} (h : s.edgeList k f = .ok es)
    (m : Nat) : es.getD m 0 < 2 ^ 32 := by
  by_cases hm : m < es.length
  · obtain ⟨-, hlt, -⟩ := ((edgeListIsTheEdges s k f es h).1 es[m]).1 (List.getElem_mem hm)
    rw [List.getD_eq_getElem _ _ hm]
    exact hlt.trans (n_lt s)
  · rw [List.getD_eq_default _ _ (Nat.le_of_not_lt hm)]
    decide

/-- Settles O44: every micro-step of the scan keeps `SyncScan` or ends as `SyncReported` says. -/
theorem syncReportsEveryEightEdges : Obligations.SyncReportsEveryEightEdges := by
  intro cpha s es hs ht hes
  have hfilter : (if cpha = .rising then .rising else .falling) = edgeFilter cpha := by cases cpha <;> rfl
  rw [hfilter] at hes
  have hfirst : SyncScan cpha s es (firstState (.sync cpha) s) :=
    ⟨rfl, ht, rfl, Nat.zero_le _, Nat.zero_le _, Nat.zero_le _, .of_none rfl rfl, nofun, hes⟩
  have hfuel : s.n - (firstState (.sync cpha) s).w.i + 1 < s.stepBound := by
    unfold State.stepBound
    omega
  obtain ⟨t, hrun, hend, hout⟩ := exec_finishes (SyncScan cpha s es) (SyncReported s es) (fun u => s.n - u.w.i) hs
    hfirst hfuel fun u hb hu => hu.step hs (edgeList_getD_lt hes) hb
  exact ⟨t, hrun, hend.busy, hend.done, hout.result, hout.count, hout.bytes⟩

end Sys2Proof.Machine
end

section
/-! I2S extracts its two edge lists (O45). -/

namespace Sys2Proof.Machine

/-! ## Taking edges one index at a time -/

/-- An edge list after one more index: the index joins it where the filter matches (40_edge_extractor.md R74). -/
def withIndex (f : Filter) (l : Bool × Bool) (i : Nat) (es : List Nat) : List Nat :=
  if filterHit f l then es ++ [i] else es

theorem withIndex_append (f : Filter) (l : Bool × Bool) (i : Nat) (es rest : List Nat) :
    withIndex f l i es ++ rest = es ++ if filterHit f l then i :: rest else rest := by
  unfold withIndex
  split <;> simp

/-- The edges among given indices depend on N and the slots only (40_edge_extractor.md R72, R73). -/
theorem edgesAmong_congr {s s' : State} (hn : s'.n = s.n) (hchan : s'.chan = s.chan) (k : BitVec 2) (f : Filter)
    (is : List Nat) : edgesAmong s' k f is = edgesAmong s k f is := by
  induction is with
  | nil => rfl
  | cons i is ih => simp only [edgesAmong, State.levels, State.smp, hn, hchan, ih]

theorem i2sFrameEdge_withIndex (l : Bool × Bool) (s : State) :
    i2sFrameEdge l s = { s with w := { s.w with fe := withIndex .any l s.w.i s.w.fe } } := by
  unfold i2sFrameEdge withIndex
  split <;> rfl

theorem i2sBitEdge_withIndex (bedge : ClockEdge) (l : Bool × Bool) (s : State) :
    i2sBitEdge bedge l s = { s with w := { s.w with be := withIndex (edgeFilter bedge) l s.w.i s.w.be } } := by
  unfold i2sBitEdge withIndex
  split <;> rfl

/-- A loop over the indices from `i` on that takes them into a list one by one, then a micro-step that ends the list:
`atIndex es i` is the state with `es` taken, at index `i`. -/
theorem runMoves_extraction {move : State → Host.Outcome State Fault Refusal}
    {atIndex done : List Nat → Nat → State} {s : State} {k : BitVec 2} {f : Filter} {i : Nat} {es : List Nat}
    (taken : List Nat) (hes : edgesAmong s k f (List.range' i (s.n - i)) = .ok es)
    (hbusy : ∀ es i, (atIndex es i).status.busy = true)
    (hindex : ∀ es i l, i < s.n → s.levels k i = .ok l →
      move (atIndex es i) = .next (atIndex (withIndex f l i es) (i + 1)))
    (hend : ∀ es i, s.n ≤ i → move (atIndex es i) = .next (done es i)) :
    runMoves move (s.n - i + 1) (atIndex taken i) = .next (done (taken ++ es) (max i s.n)) := by
  induction hm : s.n - i generalizing i taken es with
  | zero =>
    have hi : s.n ≤ i := Nat.le_of_sub_eq_zero hm
    rw [hm] at hes
    cases hes
    rw [runMoves_succ (hbusy taken i) (hend taken i hi), runMoves_zero, List.append_nil, Nat.max_eq_left hi]
  | succ m ih =>
    have hi : i < s.n := by omega
    have hm' : s.n - (i + 1) = m := by omega
    rw [hm, List.range'_succ] at hes
    obtain ⟨l, rest, hl, hrest, rfl⟩ := edgesAmong_cons hes
    rw [runMoves_succ (hbusy taken i) (hindex taken i l hi hl), ih _ (hm'.symm ▸ hrest) hm', withIndex_append,
      Nat.max_eq_right hi, Nat.max_eq_right hi.le]

/-! ## The two extractions -/

/-- `s` with FE taken up to the index `i`. -/
def State.withFe (s : State) (fe : List Nat) (i : Nat) : State := { s with w := { s.w with fe := fe, i := i } }

/-- `s` with FE complete, where the extraction of BE begins (45_i2s.md R110). -/
def State.beginBitEdges (s : State) (fe : List Nat) : State :=
  { s with phase := .bitEdges, w := { s.w with fe := fe, i := 1 } }

/-- `s` with BE taken up to the index `i`. -/
def State.withBe (s : State) (be : List Nat) (i : Nat) : State := { s with w := { s.w with be := be, i := i } }

/-- `s` with BE complete after the index `i`, where the word loop begins (45_i2s.md R110). -/
def State.beginWords (s : State) (be : List Nat) (i : Nat) : State :=
  { s with phase := .words, w := { s.w with be := be, k := 0, i := i } }

section I2s
variable (bpw : BitVec 6) (delay : BitVec 4) (order : BitOrder) (bedge : ClockEdge) {s : State}

/-- One index of the extraction of FE (45_i2s.md R110). -/
theorem i2sMove_scan_index (h : s.phase = .scan) (hb : s.status.busy = true) (hi : s.w.i < s.n) {l : Bool × Bool}
    (hl : s.levels 0 s.w.i = .ok l) : move (.i2s bpw delay order bedge) s =
      .next (s.withFe (withIndex .any l s.w.i s.w.fe) (s.w.i + 1)) := by
  have hstep : scanStep (.i2s bpw delay order bedge) s =
      .ok { s with w := { s.w with fe := withIndex .any l s.w.i s.w.fe } } := by
    simp only [scanStep, hl, ← i2sFrameEdge_withIndex]; rfl
  exact (move_of_scanning (by rw [h]; rfl)).trans (scanMove_quiet hi hb hstep)

/-- After the last index of LRCK the extraction of BE begins (45_i2s.md R110). -/
theorem i2sMove_scan_end (h : s.phase = .scan) (hi : s.n ≤ s.w.i) :
    move (.i2s bpw delay order bedge) s = .next (s.beginBitEdges s.w.fe) :=
  (move_of_scanning (by rw [h]; rfl)).trans (scanMove_of_ge hi)

/-- One index of the extraction of BE (45_i2s.md R110). -/
theorem i2sMove_bitEdges_index (h : s.phase = .bitEdges) (hb : s.status.busy = true) (hi : s.w.i < s.n)
    {l : Bool × Bool} (hl : s.levels 1 s.w.i = .ok l) : move (.i2s bpw delay order bedge) s =
      .next (s.withBe (withIndex (edgeFilter bedge) l s.w.i s.w.be) (s.w.i + 1)) :=
  (i2sMove_bitEdges h).trans <|
    scanMove_quiet (w := { s.w with be := withIndex (edgeFilter bedge) l s.w.i s.w.be }) hi hb <| by
      simp only [hl, ← i2sBitEdge_withIndex]; rfl

/-- After the last index of BCLK the word loop begins (45_i2s.md R110). -/
theorem i2sMove_bitEdges_end (h : s.phase = .bitEdges) (hi : s.n ≤ s.w.i) :
    move (.i2s bpw delay order bedge) s = .next (s.beginWords s.w.be s.w.i) :=
  (i2sMove_bitEdges h).trans (scanMove_of_ge hi)

/-- The extraction of FE from the current index on, to the start of that of BE (45_i2s.md R110). -/
theorem i2s_extracts_fe (h : s.phase = .scan) (hb : s.status.busy = true) {fe : List Nat}
    (hfe : edgesAmong s 0 .any (List.range' s.w.i (s.n - s.w.i)) = .ok fe) :
    runMoves (move (.i2s bpw delay order bedge)) (s.n - s.w.i + 1) s = .next (s.beginBitEdges (s.w.fe ++ fe)) :=
  runMoves_extraction (atIndex := s.withFe) (done := fun es _ => s.beginBitEdges es) s.w.fe hfe (fun _ _ => hb)
    (fun es i _ hi hl => i2sMove_scan_index bpw delay order bedge (s := s.withFe es i) h hb hi hl)
    (fun es i => i2sMove_scan_end bpw delay order bedge (s := s.withFe es i) h)

/-- The extraction of BE from the current index on, to the start of the word loop (45_i2s.md R110). -/
theorem i2s_extracts_be (h : s.phase = .bitEdges) (hb : s.status.busy = true) {be : List Nat}
    (hbe : edgesAmong s 1 (edgeFilter bedge) (List.range' s.w.i (s.n - s.w.i)) = .ok be) :
    runMoves (move (.i2s bpw delay order bedge)) (s.n - s.w.i + 1) s =
      .next (s.beginWords (s.w.be ++ be) (max s.w.i s.n)) :=
  runMoves_extraction (atIndex := s.withBe) (done := s.beginWords) s.w.be hbe (fun _ _ => hb)
    (fun es i _ hi hl => i2sMove_bitEdges_index bpw delay order bedge (s := s.withBe es i) h hb hi hl)
    (fun es i => i2sMove_bitEdges_end bpw delay order bedge (s := s.withBe es i) h)

end I2s

/-- Settles O45: the two extractions one after the other, each from index 1 with an empty list. -/
theorem i2sExtractsEdges : Obligations.I2sExtractsEdges := by
  intro bpw delay order bedge s fe be hb hphase hi hfe0 hbe0 hfe hbe
  have hfilter : (if bedge = .rising then .rising else .falling) = edgeFilter bedge := by cases bedge <;> rfl
  have hframe := i2s_extracts_fe bpw delay order bedge hphase hb (by rw [hi]; exact hfe)
  rw [hi, hfe0, List.nil_append] at hframe
  have hbe' : (s.beginBitEdges fe).edgeList 1 (edgeFilter bedge) = .ok be :=
    hfilter ▸ (edgesAmong_congr (s' := s.beginBitEdges fe) (s := s) rfl rfl ..).trans hbe
  have hbits := i2s_extracts_be bpw delay order bedge (s := s.beginBitEdges fe) rfl hb hbe'
  rw [show (s.beginBitEdges fe).w.be = [] from hbe0, List.nil_append] at hbits
  have hsplit : 2 * (s.n - 1) + 2 = (s.n - 1 + 1) + (s.n - 1 + 1) := by omega
  rw [hsplit, runMoves_add _ _ _ _ hframe]
  exact hbits

end Sys2Proof.Machine
end

section
/-! UART: the frame search selects the first best offset (O55). -/

namespace Sys2Proof.Machine

/-! ## The match count -/

/-- Counting over a longer range adds nothing when the predicate fails from the shorter bound on. -/
theorem countP_range_eq_of_le {p : Nat → Bool} {a b : Nat} (hab : a ≤ b) (hp : ∀ m, a ≤ m → p m = false) :
    (List.range b).countP p = (List.range a).countP p := by
  obtain ⟨c, rfl⟩ := Nat.exists_eq_add_of_le hab
  have hrest : ((List.range c).map (a + ·)).countP p = 0 := by
    simpa [List.countP_eq_zero] using fun m _ => hp (a + m) (Nat.le_add_right ..)
  rw [List.range_add, List.countP_append, hrest, Nat.add_zero]

/-- `cnt(o)` counts every window that ends by L, so the bound on their number may be any that is large enough
(46_uart.md R121). -/
theorem matchCount_eq (w : Work) (hframe : 0 < w.frame) (o : Nat) :
    matchCount w o = (List.range w.bits.length).countP fun m =>
      decide (o + (m + 1) * w.frame ≤ w.bits.length ∧ w.bits.getD (o + m * w.frame) false = false ∧
        w.bits.getD (o + m * w.frame + w.frame - 1) false = true) := by
  have hbeyond (m : Nat) (hm : w.bits.length / w.frame ≤ m) : w.bits.length < (m + 1) * w.frame :=
    (Nat.div_lt_iff_lt_mul hframe).1 (Nat.lt_succ_of_le hm)
  rw [countP_range_eq_of_le (Nat.div_le_self _ w.frame) fun m hm => by
    have := hbeyond m hm
    exact decide_eq_false fun h => by omega]
  refine congrArg (List.countP · _) (funext fun m => ?_)
  simp [Work.bit, Bool.decide_and, Bool.and_assoc]

/-! ## The loop over the offsets -/

/-- What the search knows after `n` offsets: none of them matches more often than `count`, `best` does so at least
`count` times, every offset before it less often, and it is one of those searched (or 0 before the first). -/
structure BestOf (w : Work) (n best count : Nat) : Prop where
  most : ∀ o, o < n → matchCount w o ≤ count
  first : ∀ o, o < best → matchCount w o < count
  reached : count ≤ matchCount w best
  searched : best < max 1 n

theorem BestOf.zero (w : Work) : BestOf w 0 0 0 := ⟨nofun, nofun, Nat.zero_le _, Nat.one_pos⟩

/-- The next offset matches more often than all before. -/
theorem BestOf.take {w : Work} {n best count : Nat} (h : BestOf w n best count) (hc : count < matchCount w n) :
    BestOf w (n + 1) n (matchCount w n) where
  most o ho := by
    obtain ho | rfl := Nat.lt_succ_iff_lt_or_eq.1 ho
    · exact (h.most o ho).trans hc.le
    · exact le_rfl
  first o ho := (h.most o ho).trans_lt hc
  reached := le_rfl
  searched := by omega

/-- The next offset matches no more often than the best so far. -/
theorem BestOf.keep {w : Work} {n best count : Nat} (h : BestOf w n best count) (hc : matchCount w n ≤ count) :
    BestOf w (n + 1) best count where
  most o ho := by
    obtain ho | rfl := Nat.lt_succ_iff_lt_or_eq.1 ho
    · exact h.most o ho
    · exact hc
  first := h.first
  reached := h.reached
  searched := h.searched.trans_le (by omega)

/-- `s` in the frame search before offset `o`. -/
def State.searchAt (s : State) (o best count : Nat) : State :=
  { s with w := { s.w with o := o, best := best, bestcnt := count } }

theorem searchAt_self (s : State) : s.searchAt s.w.o s.w.best s.w.bestcnt = s := rfl

/-- One offset of the search (46_uart.md R121). -/
theorem uartSearch_searchAt {s : State} {n best count : Nat} (hn : n < searchBound s) (h : BestOf s.w n best count) :
    ∃ best' count', uartSearch (s.searchAt n best count) = s.searchAt (n + 1) best' count' ∧
      BestOf s.w (n + 1) best' count' := by
  have hsearch : uartSearch (s.searchAt n best count) = if count < matchCount s.w n then
      s.searchAt (n + 1) n (matchCount s.w n) else s.searchAt (n + 1) best count := if_pos hn
  by_cases hc : count < matchCount s.w n
  · exact ⟨_, _, hsearch.trans (if_pos hc), h.take hc⟩
  · exact ⟨_, _, hsearch.trans (if_neg hc), h.keep (Nat.le_of_not_lt hc)⟩

/-- The end of the search (46_uart.md R113, R121, R123). -/
theorem uartSearch_of_end {s : State} (h : searchBound s ≤ s.w.o) : uartSearch s =
    { s with uartOffset := BitVec.ofNat 32 s.w.best, phase := .walk, w := { s.w with p := s.w.best } } :=
  if_neg (Nat.not_lt.2 h)

/-- After `n` micro-steps `n` offsets are searched. -/
theorem runMoves_search (d : BitVec 4) (par : Parity) (st au an : Bool) {s : State} (hb : s.status.busy = true)
    (hphase : s.phase = .search) {n : Nat} (hn : n ≤ searchBound s) :
    ∃ best count, runMoves (move (.uart d par st au an)) n (s.searchAt 0 0 0) = .next (s.searchAt n best count) ∧
      BestOf s.w n best count := by
  induction n with
  | zero => exact ⟨0, 0, rfl, .zero s.w⟩
  | succ n ih =>
    obtain ⟨best, count, hrun, hbest⟩ := ih (Nat.le_of_succ_le hn)
    obtain ⟨best', count', hstep, hbest'⟩ := uartSearch_searchAt hn hbest
    have hmove : move (.uart d par st au an) (s.searchAt n best count) = .next (s.searchAt (n + 1) best' count') :=
      hstep ▸ uartMove_search (by exact hphase)
    refine ⟨best', count', ?_, hbest'⟩
    rw [runMoves_add n 1 _ _ hrun, runMoves_succ (by exact hb) hmove, runMoves_zero]

/-- Settles O55: the invariant `BestOf` over the offsets of the window, then the micro-step that ends the search. -/
theorem searchSelectsFirstBest : Obligations.SearchSelectsFirstBest := by
  intro d par st au an s hb hphase ho hbest hcnt hframe
  have hstart := searchAt_self s
  rw [ho, hbest, hcnt] at hstart
  obtain ⟨best, count, hrun, hmost, hfirst, hreached, hsearched⟩ :=
    runMoves_search d par st au an hb hphase (le_refl (searchBound s))
  rw [hstart] at hrun
  have hend := (uartMove_search (dbits := d) (par := par) (stop2 := st) (auto := au) (analog := an)
    (s := s.searchAt (searchBound s) best count) hphase).trans (congrArg _ (uartSearch_of_end le_rfl))
  refine ⟨_, best, (runMoves_add _ 1 _ _ hrun).trans ((runMoves_succ (by exact hb) hend).trans (runMoves_zero _ _)),
    rfl, rfl, rfl, ?_, fun o hoff => (hmost o hoff).trans hreached, fun o hoff => (hfirst o hoff).trans_le hreached,
    matchCount_eq s.w hframe⟩
  rwa [max_eq_right (searchBound_pos s)] at hsearched

end Sys2Proof.Machine
end

section
/-! UART phase 1: the analog threshold (O47), the runs (O48), the bit period (O50, O51). -/

namespace Sys2Proof.Machine

/-! ## The tally of the analog levels -/

/-- The levels a tally lists. -/
def tallied (t : List (Rat × Nat)) : List Rat := t.map (·.1)

/-- The count a tally lists for `x`, 0 when it lists none. -/
def countIn (x : Rat) : List (Rat × Nat) → Nat
  | [] => 0
  | (y, c) :: t => if y = x then c else countIn x t

theorem tallied_bump (v : Rat) (t : List (Rat × Nat)) :
    tallied (bump v t) = if v ∈ tallied t then tallied t else tallied t ++ [v] := by
  induction t with
  | nil => simp [tallied, bump]
  | cons e t ih =>
    obtain ⟨x, c⟩ := e
    unfold tallied at ih ⊢
    by_cases hx : x = v
    · simp [bump, hx]
    · simp only [bump, hx, Ne.symm hx, if_false, List.map_cons, List.mem_cons, false_or, ih]
      split <;> rfl

theorem countIn_bump (v x : Rat) (t : List (Rat × Nat)) :
    countIn x (bump v t) = countIn x t + if v = x then 1 else 0 := by
  induction t with
  | nil => simp [countIn, bump]
  | cons e t ih =>
    obtain ⟨y, c⟩ := e
    by_cases hy : y = v
    · by_cases hx : v = x <;> simp [countIn, bump, hy, hx]
    · by_cases hx : y = x
      · subst hx
        simp [countIn, bump, hy, Ne.symm hy]
      · simp [countIn, bump, hy, hx, ih]

/-- An entry of a tally without repeats is what the tally lists for its level. -/
theorem countIn_of_mem {e : Rat × Nat} : ∀ {t : List (Rat × Nat)}, (tallied t).Nodup → e ∈ t →
    e.2 = countIn e.1 t
  | (y, c) :: t, hnd, he => by
    obtain ⟨hy, hnd⟩ := List.nodup_cons.1 hnd
    obtain rfl | he := List.mem_cons.1 he
    · simp [countIn]
    · have hne : y ≠ e.1 := fun h => hy (List.mem_map.2 ⟨e, he, h.symm⟩)
      simpa [countIn, hne] using countIn_of_mem hnd he

theorem tally_concat (vs : List Rat) (v : Rat) : tally (vs ++ [v]) = bump v (tally vs) := List.foldl_concat ..

/-- A tally lists each level once, the levels that occur, and each with how often it occurs (46_uart.md R114). -/
theorem tally_spec (vs : List Rat) : (tallied (tally vs)).Nodup ∧ (∀ x, x ∈ tallied (tally vs) ↔ x ∈ vs) ∧
    ∀ x, countIn x (tally vs) = vs.count x := by
  induction vs using List.reverseRecOn with
  | nil => exact ⟨.nil, fun _ => .rfl, fun _ => rfl⟩
  | append_singleton vs v ih =>
    obtain ⟨hnd, hmem, hcount⟩ := ih
    rw [tally_concat, tallied_bump]
    refine ⟨?_, fun x => ?_, fun x => ?_⟩
    · split
      · exact hnd
      next hv => exact List.concat_eq_append ▸ hnd.concat hv
    · split
      next hv =>
        rw [hmem, List.mem_append, List.mem_singleton]
        exact ⟨.inl, fun h => h.elim id fun h => h ▸ (hmem v).1 hv⟩
      · simp [hmem]
    · rw [countIn_bump, hcount, List.count_append, List.count_singleton]
      simp

theorem mem_tally {vs : List Rat} {e : Rat × Nat} : e ∈ tally vs ↔ e.1 ∈ vs ∧ e.2 = vs.count e.1 := by
  obtain ⟨hnd, hmem, hcount⟩ := tally_spec vs
  constructor
  · intro he
    exact ⟨(hmem e.1).1 (List.mem_map_of_mem he), (countIn_of_mem hnd he).trans (hcount e.1)⟩
  · rintro ⟨hv, hc⟩
    obtain ⟨e', he', hfst⟩ := List.mem_map.1 ((hmem e.1).2 hv)
    have hsnd : e'.2 = e.2 := by rw [countIn_of_mem hnd he', hcount, hfst, hc]
    exact Prod.ext hfst hsnd ▸ he'

/-! ## The threshold -/

theorem before_eq_true {a b : Rat × Nat} : before a b = true ↔ b.2 < a.2 ∨ a.2 = b.2 ∧ a.1 < b.1 := by
  simp [before]

/-- The order of the levels is strict. -/
theorem before_asymm {a b : Rat × Nat} (h : before a b = true) : ¬ before b a = true := by
  rw [before_eq_true] at h ⊢
  rintro (hlt | ⟨heq, hlt⟩)
  · omega
  · exact h.elim (fun h => by omega) fun h => lt_asymm h.2 hlt

theorem mostFrequent_mem {a : Rat × Nat} : ∀ {t : List (Rat × Nat)}, mostFrequent t = some a → a ∈ t
  | e :: t, h => by
    unfold mostFrequent at h
    split at h
    · exact Option.some.inj h ▸ List.mem_cons_self
    next b hb =>
      split at h
      · exact List.mem_cons_of_mem _ (mostFrequent_mem (hb.trans h))
      · exact Option.some.inj h ▸ List.mem_cons_self

/-- The entry that comes before every other one is the first in that order. -/
theorem mostFrequent_eq_some {a : Rat × Nat} {t : List (Rat × Nat)} (ha : a ∈ t)
    (hbefore : ∀ e ∈ t, e ≠ a → before a e = true) : mostFrequent t = some a := by
  induction t with
  | nil => cases ha
  | cons e t ih =>
    have hbefore' : ∀ e ∈ t, e ≠ a → before a e = true := fun e he => hbefore e (List.mem_cons_of_mem _ he)
    unfold mostFrequent
    split
    next hnone =>
      obtain rfl | ha := List.mem_cons.1 ha
      · rfl
      · cases (ih ha hbefore').symm.trans hnone
    next b hb =>
      by_cases hat : a ∈ t
      · obtain rfl : a = b := Option.some.inj ((ih hat hbefore').symm.trans hb)
        by_cases hea : e = a
        · simp [hea]
        · rw [if_pos (hbefore e List.mem_cons_self hea)]
      · obtain rfl : a = e := (List.mem_cons.1 ha).resolve_right hat
        have hbt := mostFrequent_mem hb
        rw [if_neg (before_asymm (hbefore' b hbt fun h => hat (h ▸ hbt)))]

/-- θ from the two levels that come first (46_uart.md R114). -/
theorem thresholdOf_eq_some {vs : List Rat} {a b : Rat} (ha : a ∈ vs) (hb : b ∈ vs) (hab : a ≠ b)
    (hfirst : ∀ c ∈ vs, c ≠ a → vs.count c < vs.count a ∨ (vs.count c = vs.count a ∧ a < c))
    (hsecond : ∀ c ∈ vs, c ≠ a → c ≠ b → vs.count c < vs.count b ∨ (vs.count c = vs.count b ∧ b < c)) :
    thresholdOf vs = some ((a + b) / 2) := by
  have hne {x : Rat} {e : Rat × Nat} (he : e ∈ tally vs) (hx : e ≠ (x, vs.count x)) : e.1 ≠ x :=
    fun h => hx (Prod.ext h ((mem_tally.1 he).2.trans (by rw [h])))
  have hmostA : mostFrequent (tally vs) = some (a, vs.count a) := by
    refine mostFrequent_eq_some (mem_tally.2 ⟨ha, rfl⟩) fun e he hea => before_eq_true.2 ?_
    obtain ⟨hv, hc⟩ := mem_tally.1 he
    rw [hc]
    exact (hfirst e.1 hv (hne he hea)).imp_right fun h => ⟨h.1.symm, h.2⟩
  have hmostB : mostFrequent ((tally vs).filter fun e => decide (e.1 ≠ a)) = some (b, vs.count b) := by
    refine mostFrequent_eq_some (List.mem_filter.2 ⟨mem_tally.2 ⟨hb, rfl⟩, by simpa using hab.symm⟩)
      fun e he heb => before_eq_true.2 ?_
    obtain ⟨he, hea⟩ := List.mem_filter.1 he
    obtain ⟨hv, hc⟩ := mem_tally.1 he
    rw [hc]
    exact (hsecond e.1 hv (of_decide_eq_true hea) (hne he heb)).imp_right fun h => ⟨h.1.symm, h.2⟩
  simp only [thresholdOf, hmostA, hmostB]

/-- With no second level there is no θ (46_uart.md R114). -/
theorem thresholdOf_eq_none {vs : List Rat} (h : ∀ a ∈ vs, ∀ b ∈ vs, a = b) : thresholdOf vs = none := by
  unfold thresholdOf
  split
  · rfl
  next a ha =>
    have hav := (mem_tally.1 (mostFrequent_mem ha)).1
    have hempty : (tally vs).filter (fun e => decide (e.1 ≠ a.1)) = [] :=
      List.filter_eq_nil_iff.2 fun e he => by simpa using h e.1 (mem_tally.1 he).1 a.1 hav
    rw [hempty]
    rfl

theorem uartLevel_of_ach {s : State} {i : Nat} {v : Rat} (hi : i < s.n) (hv : s.ach i = some v) :
    uartLevel true s i = .ok (s.w.theta.elim false fun t => decide (t < v)) := by
  cases h : s.w.theta <;> simp [uartLevel, hi, hv, h]

/-- Settles O47: the tally's entries in their order, then the level of one sample. -/
theorem analogThreshold : Obligations.AnalogThreshold := by
  refine ⟨fun vs a b => thresholdOf_eq_some, fun vs => thresholdOf_eq_none,
    fun s i v hi hv => ⟨fun h => ?_, fun t h => ?_⟩⟩
  all_goals rw [uartLevel_of_ach hi hv, h]; rfl

/-! ## The runs -/

theorem runsOf_concat (xs : List Bool) (x : Bool) : runsOf (xs ++ [x]) = addSample x xs.length (runsOf xs) := by
  have h := runsOf_take_succ (xs := xs ++ [x]) (i := xs.length) (by simp)
  rwa [List.take_of_length_le (by simp), List.take_left, List.getD_append_right _ _ _ _ le_rfl, Nat.sub_self] at h

/-- The samples the runs stand for. -/
def runSamples (rs : List Run) : List Bool := rs.flatMap fun r => List.replicate r.len r.level

theorem runSamples_addSample (b : Bool) (i : Nat) (rs : List Run) :
    runSamples (addSample b i rs) = runSamples rs ++ [b] := by
  induction rs with
  | nil => rfl
  | cons r rs ih =>
    cases rs with
    | nil =>
      by_cases hb : r.level = b
      · simp [addSample, runSamples, hb, List.replicate_succ']
      · simp [addSample, runSamples, hb]
    | cons r' rs =>
      show List.replicate r.len r.level ++ runSamples (addSample b i (r' :: rs)) = _
      rw [ih, ← List.append_assoc]
      rfl

/-- The first run keeps its level when a sample joins the runs. -/
theorem addSample_cons (b : Bool) (i : Nat) (r : Run) (rs : List Run) :
    ∃ r' rs', addSample b i (r :: rs) = r' :: rs' ∧ r'.level = r.level := by
  cases rs with
  | nil =>
    by_cases hb : r.level = b
    · exact ⟨_, _, if_pos hb, rfl⟩
    · exact ⟨_, _, if_neg hb, rfl⟩
  | cons r' rs => exact ⟨_, _, rfl, rfl⟩

theorem alternating_addSample (b : Bool) (i : Nat) {rs : List Run} (h : Alternating rs) :
    Alternating (addSample b i rs) := by
  induction rs with
  | nil => exact .singleton _
  | cons r rs ih =>
    cases rs with
    | nil =>
      unfold addSample
      split
      · exact .singleton _
      next hb => exact List.isChain_pair.2 hb
    | cons r' rs =>
      obtain ⟨hne, hrest⟩ := List.isChain_cons_cons.1 h
      obtain ⟨q, qs, heq, hlevel⟩ := addSample_cons b i r' rs
      show Alternating (r :: addSample b i (r' :: rs))
      have hq := ih hrest
      rw [heq] at hq ⊢
      exact List.isChain_cons_cons.2 ⟨hlevel ▸ hne, hq⟩

/-- Settles O48: each part sample by sample. -/
theorem runsPartitionTheSamples : Obligations.RunsPartitionTheSamples := by
  intro xs
  show runSamples (runsOf xs) = xs ∧ _ ∧ _ ∧ runsLength (runsOf xs) = xs.length
  induction xs using List.reverseRecOn with
  | nil => exact ⟨rfl, trivial, .nil, rfl⟩
  | append_singleton xs x ih =>
    obtain ⟨hsamples, hcontiguous, halternating, hlength⟩ := ih
    obtain ⟨hcontiguous', hlength'⟩ :=
      addSample_contiguous (b := x) hcontiguous ((Nat.zero_add _).trans hlength)
    rw [runsOf_concat, List.length_append, runSamples_addSample, hsamples]
    exact ⟨rfl, hcontiguous', alternating_addSample x _ halternating, (Nat.zero_add _).symm.trans hlength'⟩

/-! ## The bit period -/

/-- Settles O50: dividing SP_DEN and BAUD · SP_NUM by their gcd. -/
theorem baudPeriodIsExact : Obligations.BaudPeriodIsExact := by
  intro op hnum hden hbaud
  have hden' : 0 < op.spDen.toNat := BitVec.toNat_pos_of_ne_zero hden
  have hprod : 0 < op.baud.toNat * op.spNum.toNat :=
    Nat.mul_pos (BitVec.toNat_pos_of_ne_zero hbaud) (BitVec.toNat_pos_of_ne_zero hnum)
  have hfits : op.baud.toNat * op.spNum.toNat < 2 ^ 64 :=
    (Nat.mul_lt_mul'' op.baud.isLt op.spNum.isLt).trans_eq (by norm_num)
  unfold baudPeriod
  generalize op.baud.toNat * op.spNum.toNat = den at hprod hfits ⊢
  have hgcd : 0 < Nat.gcd op.spDen.toNat den := Nat.gcd_pos_of_pos_left _ hden'
  refine ⟨?_, Nat.coprime_div_gcd_div_gcd hgcd, Nat.div_pos (Nat.gcd_le_left _ hden') hgcd,
    (Nat.div_le_self ..).trans_lt op.spDen.isLt, Nat.div_pos (Nat.gcd_le_right _ hprod) hgcd,
    (Nat.div_le_self ..).trans_lt hfits⟩
  calc op.spDen.toNat / Nat.gcd op.spDen.toNat den * den
      = op.spDen.toNat * den / Nat.gcd op.spDen.toNat den := Nat.div_mul_right_comm (Nat.gcd_dvd_left ..) den
    _ = op.spDen.toNat * (den / Nat.gcd op.spDen.toNat den) := Nat.mul_div_assoc _ (Nat.gcd_dvd_right ..)

/-! ### The histogram of run lengths -/

/-- How often a histogram counts the run length `l`. -/
def histCount (h : List (Nat × Nat)) (l : Nat) : Nat := (storeRead h l).getD 0

theorem histCount_storeWrite (h : List (Nat × Nat)) (k c l : Nat) :
    histCount (storeWrite h k c) l = if l = k then c else histCount h l := by
  unfold histCount
  rw [storeRead_storeWrite]
  split <;> rfl

/-- A canonical store lists nothing below its first key. -/
theorem storeRead_of_lt_head {α : Type} {m : List (Nat × α)} {k : Nat} (hwf : storeWf m = true)
    (h : ∀ e ∈ m.head?, k < e.1) : storeRead m k = none := by
  induction m with
  | nil => rfl
  | cons e m ih =>
    obtain ⟨l, x⟩ := e
    obtain ⟨hhead, hwf⟩ := (storeWf_cons l x m).1 hwf
    have hk : k < l := h (l, x) rfl
    rw [storeRead, if_neg hk.ne]
    exact ih hwf fun e he => hk.trans (hhead e he)

/-- The first length counted twice in a histogram with rising lengths is the least (46_uart.md R117). -/
theorem autobaud_eq_some {h : List (Nat × Nat)} (hwf : storeWf h = true) (k : Nat) :
    autobaud h = some k ↔ 2 ≤ histCount h k ∧ ∀ l, l < k → histCount h l < 2 := by
  induction h with
  | nil => simp [autobaud, histCount, storeRead]
  | cons e h ih =>
    obtain ⟨a, c⟩ := e
    obtain ⟨hhead, hwf'⟩ := (storeWf_cons a c h).1 hwf
    have hself : histCount ((a, c) :: h) a = c := by simp [histCount, storeRead]
    have hother {l : Nat} (hl : l ≠ a) : histCount ((a, c) :: h) l = histCount h l := by
      simp [histCount, storeRead, hl]
    have hbelow {l : Nat} (hl : l ≤ a) : histCount h l = 0 := by
      rw [histCount, storeRead_of_lt_head hwf' fun e he => hl.trans_lt (hhead e he)]
      rfl
    by_cases hc : 2 ≤ c
    · have hfound : autobaud ((a, c) :: h) = some a := by simp [autobaud, hc]
      rw [hfound, Option.some_inj]
      constructor
      · rintro rfl
        exact ⟨hself.symm ▸ hc, fun l hl => by rw [hother hl.ne, hbelow hl.le]; decide⟩
      · rintro ⟨hk, hleast⟩
        obtain hlt | heq | hgt := Nat.lt_trichotomy a k
        · have := hleast a hlt; omega
        · exact heq
        · rw [hother hgt.ne, hbelow hgt.le] at hk; omega
    · have hskip : autobaud ((a, c) :: h) = autobaud h := by simp [autobaud, hc]
      have hsame (l : Nat) : 2 ≤ histCount ((a, c) :: h) l ↔ 2 ≤ histCount h l := by
        by_cases hl : l = a
        · rw [hl, hself, hbelow le_rfl]; omega
        · rw [hother hl]
      simp only [hskip, ih hwf', ← Nat.not_le, hsame]

theorem histogram_concat (rs : List Run) (r : Run) :
    histogram (rs ++ [r]) = storeWrite (histogram rs) r.len (histCount (histogram rs) r.len + 1) := List.foldl_concat ..

/-- HIST is a canonical store of how often each run length occurs (46_uart.md R117). -/
theorem histogram_spec (rs : List Run) : storeWf (histogram rs) = true ∧
    ∀ l, histCount (histogram rs) l = rs.countP fun r => r.len == l := by
  induction rs using List.reverseRecOn with
  | nil => exact ⟨rfl, fun _ => rfl⟩
  | append_singleton rs r ih =>
    obtain ⟨hwf, hcount⟩ := ih
    rw [histogram_concat]
    refine ⟨storeWf_storeWrite _ _ _ hwf, fun l => ?_⟩
    rw [histCount_storeWrite, List.countP_append, List.countP_singleton, ← hcount]
    by_cases hl : l = r.len
    · simp [hl]
    · simp [hl, Ne.symm hl]

/-- Settles O51: HIST counts the run lengths in rising order, and the first counted twice is the least. -/
theorem autobaudIsLeastRepeatedLength : Obligations.AutobaudIsLeastRepeatedLength := by
  intro runs k
  obtain ⟨hwf, hcount⟩ := histogram_spec runs
  simp only [autobaud_eq_some hwf, hcount]

end Sys2Proof.Machine
end

section
/-! UART phase 2: the bit period's outcomes (O54), the parity and the data value (O57), the frame walk (O56). -/

namespace Sys2Proof.Machine

/-! ## From the bit period to the search -/

section Stream
variable {dbits : BitVec 4} {par : Parity} {stop2 auto analog : Bool} {s : State}

/-- BITS of the runs and the bit period in the working registers (46_uart.md R118). -/
def State.stream (s : State) : List Bool := streamBits s.cfg.uartTie s.w.pNum s.w.pDen s.w.runs

/-- BIDX of the runs and the bit period in the working registers (46_uart.md R119). -/
def State.streamStarts (s : State) : List Nat := streamIndex s.cfg.uartTie s.w.pNum s.w.pDen s.w.runs

/-- L of the runs and the bit period in the working registers (46_uart.md R118). -/
def State.streamSize (s : State) : Nat := streamLength s.cfg.uartTie s.w.pNum s.w.pDen s.w.runs

/-- `s` with the first `n` bits of the bitstream built. -/
def State.withBits (s : State) (n : Nat) : State :=
  { s with w := { s.w with bits := s.stream.take n, bidx := s.streamStarts.take n } }

theorem length_stream (s : State) : s.stream.length = s.streamSize := length_streamBits ..

theorem length_streamStarts (s : State) : s.streamStarts.length = s.streamSize := length_streamIndex ..

theorem withBits_zero (hbits : s.w.bits = []) (hbidx : s.w.bidx = []) : s.withBits 0 = s := by
  show { s with w := { s.w with bits := [], bidx := [] } } = s
  rw [← hbits, ← hbidx]

theorem withBits_streamSize (s : State) : s.withBits s.streamSize =
    { s with w := { s.w with bits := s.stream, bidx := s.streamStarts } } := by
  unfold State.withBits
  rw [List.take_of_length_le (length_stream s).le, List.take_of_length_le (length_streamStarts s).le]

theorem streamEntry_eq_getElem {n : Nat} (hbit : n < s.stream.length) (hstart : n < s.streamStarts.length) :
    streamEntry s.cfg.uartTie s.w.pNum s.w.pDen s.w.runs n = some (s.stream[n], s.streamStarts[n]) := by
  have hbit' : (streamBits s.cfg.uartTie s.w.pNum s.w.pDen s.w.runs)[n]? = some s.stream[n] :=
    List.getElem?_eq_getElem hbit
  have hstart' : (streamIndex s.cfg.uartTie s.w.pNum s.w.pDen s.w.runs)[n]? = some s.streamStarts[n] :=
    List.getElem?_eq_getElem hstart
  rw [streamEntry_eq, hbit', hstart']

/-! ### One micro-step -/

theorem uartResample_of_entry {v : Bool} {x : Nat}
    (h : streamEntry s.cfg.uartTie s.w.pNum s.w.pDen s.w.runs s.w.bits.length = some (v, x)) :
    uartResample dbits par stop2 s = { s with w := { s.w with bits := s.w.bits ++ [v], bidx := s.w.bidx ++ [x] } } := by
  simp only [uartResample, h]

/-- `s` with the bitstream complete: UART_BSLEN and F are set (46_uart.md R118 to R120). -/
def State.streamed (s : State) (frame : Nat) : State :=
  { s with
    uartBslen := BitVec.ofNat 32 s.streamSize
    w := { s.w with bits := s.stream, bidx := s.streamStarts, frame := frame } }

/-- `s` where the frame search begins (46_uart.md R121). -/
def State.beginSearch (s : State) : State :=
  { s with phase := .search, w := { s.w with o := 0, best := 0, bestcnt := 0 } }

/-- The micro-step after the last bit: too short for a frame, or on to the search (46_uart.md R120, 60 R141). -/
theorem uartResample_withBits_end :
    uartResample dbits par stop2 (s.withBits s.streamSize) = if s.streamSize < frameLength dbits par stop2 then
      (s.streamed (frameLength dbits par stop2)).finish .emptyTooShort
    else (s.streamed (frameLength dbits par stop2)).beginSearch := by
  have hnone : streamEntry s.cfg.uartTie s.w.pNum s.w.pDen s.w.runs s.streamSize = none := streamEntry_of_ge le_rfl
  rw [withBits_streamSize]
  simp only [uartResample, length_stream, hnone]
  rfl

/-! ### The loop over the bits -/

/-- One more bit (46_uart.md R118, R119). -/
theorem uartResample_withBits {n : Nat} (hn : n < s.streamSize) :
    uartResample dbits par stop2 (s.withBits n) = s.withBits (n + 1) := by
  have hbit : n < s.stream.length := hn.trans_eq (length_stream s).symm
  have hstart : n < s.streamStarts.length := hn.trans_eq (length_streamStarts s).symm
  have hlen : (s.withBits n).w.bits.length = n := List.length_take_of_le hbit.le
  rw [uartResample_of_entry (s := s.withBits n) (by rw [hlen]; exact streamEntry_eq_getElem hbit hstart)]
  simp only [State.withBits, List.take_append_getElem]

/-- One micro-step per bit of the bitstream. -/
theorem runMoves_resample (hb : s.status.busy = true) (hphase : s.phase = .resample) (hbits : s.w.bits = [])
    (hbidx : s.w.bidx = []) {n : Nat} (hn : n ≤ s.streamSize) :
    runMoves (move (.uart dbits par stop2 auto analog)) n s = .next (s.withBits n) := by
  induction n with
  | zero => rw [withBits_zero hbits hbidx, runMoves_zero]
  | succ n ih =>
    have hmove : move (.uart dbits par stop2 auto analog) (s.withBits n) = .next (s.withBits (n + 1)) :=
      (uartMove_resample (by exact hphase)).trans (congrArg _ (uartResample_withBits hn))
    rw [runMoves_add n 1 _ _ (ih (Nat.le_of_succ_le hn)), runMoves_succ (by exact hb) hmove, runMoves_zero]

/-- The bitstream from its first bit to its end (46_uart.md R118 to R120, 60 R141). -/
theorem runMoves_resample_end (hb : s.status.busy = true) (hphase : s.phase = .resample) (hbits : s.w.bits = [])
    (hbidx : s.w.bidx = []) : runMoves (move (.uart dbits par stop2 auto analog)) (s.streamSize + 1) s =
      .next (if s.streamSize < frameLength dbits par stop2 then
          (s.streamed (frameLength dbits par stop2)).finish .emptyTooShort
        else (s.streamed (frameLength dbits par stop2)).beginSearch) := by
  rw [← uartResample_withBits_end, runMoves_add _ 1 _ _ (runMoves_resample hb hphase hbits hbidx le_rfl),
    runMoves_succ (by exact hb) (uartMove_resample (by exact hphase)), runMoves_zero]

end Stream

/-- `s` where the bitstream begins: P and BP are set (46_uart.md R113, R116, R117). -/
def State.beginStream (s : State) (hist : List (Nat × Nat)) (p : Nat × Nat) : State :=
  { s with
    bpNum := BitVec.ofNat 32 p.1
    bpDen := BitVec.ofNat 64 p.2
    phase := .resample
    w := { s.w with hist := hist, pNum := p.1, pDen := p.2 } }

section Period
variable {dbits : BitVec 4} {par : Parity} {stop2 auto analog : Bool} {s : State} {p : Nat × Nat}

/-- With a bit period whose bitstream fits BITS_CAP the bitstream begins (46_uart.md R113). -/
theorem uartMove_period_of_fits (hphase : s.phase = .period) (hp : uartPeriodOf auto s.op s.w.runs = some p)
    (hfits : streamLength s.cfg.uartTie p.1 p.2 s.w.runs ≤ s.cfg.bitsCap.toNat) :
    ∃ hist, move (.uart dbits par stop2 auto analog) s = .next (s.beginStream hist p) := by
  obtain ⟨hist, hperiod⟩ := uartPeriod_of_some hp
  exact ⟨hist, (uartMove_period hphase).trans (congrArg _ (hperiod.trans (uartStream_of_fits (by exact hfits))))⟩

/-- With a bit period whose bitstream exceeds BITS_CAP the operation ends (60 R140). -/
theorem uartMove_period_of_exceeds (hphase : s.phase = .period) (hp : uartPeriodOf auto s.op s.w.runs = some p)
    (hexceeds : s.cfg.bitsCap.toNat < streamLength s.cfg.uartTie p.1 p.2 s.w.runs) :
    ∃ hist, move (.uart dbits par stop2 auto analog) s = .next ((s.beginStream hist p).finish .bitsOverflow) := by
  obtain ⟨hist, hperiod⟩ := uartPeriod_of_some hp
  exact ⟨hist, (uartMove_period hphase).trans
    (congrArg _ (hperiod.trans (uartStream_of_exceeds (by exact hexceeds))))⟩

end Period

/-- Settles O54: the micro-step of the period, then the loop over the bits and its end. -/
theorem uartPeriodOutcomes : Obligations.UartPeriodOutcomes := by
  intro d par st an s hb hphase ht hbslen hbits hbidx
  refine ⟨fun hnone => ?_, fun au p hp => ?_⟩
  · have hno : uartPeriodOf true s.op s.w.runs = none := by simp [uartPeriodOf, hnone]
    refine ⟨_, (uartMove_period hphase).trans (congrArg _ (uartPeriod_of_none hno)), ?_⟩
    rw [State.finish_of_not_tainted ht]
    exact ⟨rfl, rfl, rfl⟩
  · have hfound := uartPeriodOf_eq_some.2 hp
    by_cases hfits : streamLength s.cfg.uartTie p.1 p.2 s.w.runs ≤ s.cfg.bitsCap.toNat
    · obtain ⟨hist, hmove⟩ :=
        uartMove_period_of_fits (dbits := d) (par := par) (stop2 := st) (analog := an) hphase hfound hfits
      refine ⟨s.beginStream hist p, hmove, rfl, rfl, rfl, hbslen, fun hlt => absurd hfits (Nat.not_le.2 hlt), fun _ =>
        ⟨rfl, rfl, hbits, hbidx, fun n => runMoves_resample (s := s.beginStream hist p) hb rfl hbits hbidx, ?_⟩⟩
      have hend := runMoves_resample_end (dbits := d) (par := par) (stop2 := st) (auto := au) (analog := an)
        (s := s.beginStream hist p) hb rfl hbits hbidx
      by_cases hshort : (s.beginStream hist p).streamSize < frameLength d par st
      · rw [if_pos hshort, State.finish_of_not_tainted (by exact ht)] at hend
        exact ⟨_, hend, rfl, rfl, rfl, rfl, fun _ => rfl, fun hle => absurd hshort (Nat.not_lt.2 hle)⟩
      · rw [if_neg hshort] at hend
        exact ⟨_, hend, rfl, rfl, rfl, rfl, fun hlt => absurd hlt hshort,
          fun _ => ⟨rfl, rfl, rfl, rfl, rfl, rfl, rfl, rfl⟩⟩
    · have hexceeds := Nat.lt_of_not_le hfits
      obtain ⟨hist, hmove⟩ :=
        uartMove_period_of_exceeds (dbits := d) (par := par) (stop2 := st) (analog := an) hphase hfound hexceeds
      rw [State.finish_of_not_tainted (by exact ht)] at hmove
      exact ⟨_, hmove, rfl, rfl, rfl, hbslen, fun _ => rfl, fun hle => absurd hle hfits⟩

/-! ## Parity and data value -/

theorem popcount_eq_count (bs : List Bool) : popcount bs = bs.count true := List.countP_congr (by simp)

theorem dataValue_map_range (d : Nat) (f : Nat → Bool) : dataValue ((List.range d).map f) =
    ((List.range d).map fun j => (f j).toNat * 2 ^ j).sum := by
  induction d generalizing f with
  | zero => rfl
  | succ d ih =>
    have hdouble : ((List.range d).map fun j => (f (j + 1)).toNat * 2 ^ (j + 1)).sum =
        2 * ((List.range d).map fun j => (f (j + 1)).toNat * 2 ^ j).sum := by
      rw [← List.sum_map_mul_left]
      exact congrArg List.sum (List.map_congr_left fun j _ => by ring)
    simp only [List.range_succ_eq_map, List.map_cons, List.map_map, Function.comp_def, Nat.succ_eq_add_one, dataValue,
      List.sum_cons, hdouble, ih fun j => f (j + 1), pow_zero, mul_one]

/-- The data value as a weighted sum (46_uart.md R124). -/
theorem dataValue_eq_sum (bs : List Bool) :
    dataValue bs = ((List.range bs.length).map fun j => (bs.getD j false).toNat * 2 ^ j).sum := by
  have hmap : (List.range bs.length).map (bs.getD · false) = bs :=
    List.ext_getElem (by simp) fun j _ hj => by simp [hj]
  rw [← dataValue_map_range, hmap]

theorem dataValue_lt (bs : List Bool) : dataValue bs < 2 ^ bs.length := by
  induction bs with
  | nil => exact Nat.one_pos
  | cons b bs ih =>
    have hb := b.toNat_lt
    rw [dataValue, List.length_cons, Nat.pow_succ]
    omega

/-- Settles O57: each mode by its equation, the data value bit by bit. -/
theorem parityAndDataValue : Obligations.ParityAndDataValue := by
  refine ⟨fun bs q => ⟨?_, ?_, .rfl, ?_, rfl⟩, fun bs => ⟨dataValue_eq_sum bs, dataValue_lt bs⟩⟩
  · rw [parityOk, beq_iff_eq, popcount_eq_count]
  · rw [parityOk, beq_iff_eq, popcount_eq_count]
  · rw [parityOk, Bool.not_eq_true']

/-! ## The frame walk -/

section Walk
variable {dbits : BitVec 4} {par : Parity} {stop2 : Bool} {s : State}

theorem frameOk_iff {w : Work} : frameOk stop2 w = true ↔ w.bits.getD w.p false = false ∧
    w.bits.getD (w.p + w.frame - 1) false = true ∧
    (stop2 = true → w.bits.getD (w.p + w.frame - 2) false = true) := by
  cases stop2 <;> simp [frameOk, Work.bit, and_assoc]

/-- Past the last whole frame the operation ends (46_uart.md R123). -/
theorem uartWalk_of_end (h : s.w.bits.length < s.w.p + s.w.frame) : uartWalk dbits par stop2 s = s.finish .ok :=
  if_neg (Nat.not_le.2 h)

/-- A window that fails the check (46_uart.md R122, R123). -/
theorem uartWalk_of_not_ok (h : s.w.p + s.w.frame ≤ s.w.bits.length) (hok : frameOk stop2 s.w = false) :
    uartWalk dbits par stop2 s = { s with w := { s.w with p := s.w.p + 1 } } := by
  simp [uartWalk, h, hok]

theorem foldl_pushRecord_w (as : List Annotation) (s : State) : (as.foldl State.pushRecord s).w = s.w := by
  induction as generalizing s with
  | nil => rfl
  | cons a as ih => exact ih (s.pushRecord a)

theorem frameAnnotations_ne_nil : frameAnnotations dbits par stop2 s ≠ [] :=
  List.append_ne_nil_of_right_ne_nil _ nofun

/-- A verified frame with room for its annotations (46_uart.md R126). -/
theorem uartWalk_of_ok (h : s.w.p + s.w.frame ≤ s.w.bits.length) (hok : frameOk stop2 s.w = true)
    (hroom : s.outCount.toNat + (frameAnnotations dbits par stop2 s).length ≤ s.cfg.outCap.toNat) :
    uartWalk dbits par stop2 s = { (frameAnnotations dbits par stop2 s).foldl State.pushRecord s with
      w := { s.w with p := s.w.p + s.w.frame } } := by
  rw [uartWalk, if_pos h, if_pos hok, emitAll_eq, if_pos (.inl hroom), foldl_pushRecord_w]

/-- A verified frame that OUT cannot hold whole (60 R139). -/
theorem uartWalk_of_overflow (h : s.w.p + s.w.frame ≤ s.w.bits.length) (hok : frameOk stop2 s.w = true)
    (hfull : s.cfg.outCap.toNat < s.outCount.toNat + (frameAnnotations dbits par stop2 s).length) :
    uartWalk dbits par stop2 s = (((frameAnnotations dbits par stop2 s).take
      (s.cfg.outCap.toNat - s.outCount.toNat)).foldl State.pushRecord s).finish .outOverflow := by
  rw [uartWalk, if_pos h, if_pos hok, emitAll_eq,
    if_neg (not_or.2 ⟨Nat.not_le.2 hfull, frameAnnotations_ne_nil⟩)]

theorem dataValue_dataBits (d : Nat) (w : Work) : dataValue (dataBits d w) =
    ((List.range d).map fun j => (w.bits.getD (w.p + 1 + j) false).toNat * 2 ^ j).sum :=
  dataValue_map_range ..

end Walk

/-- Settles O56: `uartWalk` case by case, its annotations those of the statement. -/
theorem frameWalk : Obligations.FrameWalk := by
  rintro d par st au an s ok pok q v bx as hphase hok rfl rfl rfl hbx has
  have hok' : frameOk st s.w = ok := Bool.eq_iff_iff.2 (frameOk_iff.trans hok.symm)
  obtain rfl : frameAnnotations d par st s = as := by
    rw [has, ← dataValue_dataBits]
    simp only [hbx]
    rfl
  rw [uartMove_walk hphase]
  exact ⟨fun h => congrArg _ (uartWalk_of_end h), fun h hno => congrArg _ (uartWalk_of_not_ok h (hok'.trans hno)),
    fun h hyes hroom => congrArg _ (uartWalk_of_ok h (hok'.trans hyes) hroom),
    fun h hyes hfull => congrArg _ (uartWalk_of_overflow h (hok'.trans hyes) hfull)⟩

end Sys2Proof.Machine
end

section
/-! The clocked operations end with OK where OUT can hold a record per sample (O18). -/

namespace Sys2Proof.Machine

/-! ## Room for a record per sample -/

/-- OUT can hold a record per sample, and the operation is not spoiled (20_memory.md R47, R55). -/
structure State.Ample (s : State) : Prop where
  tainted : s.tainted = false
  fits : s.n ≤ s.cfg.outCap.toNat

theorem Moved.ample {i : Instr} {s t : State} (h : Moved i s t) (hs : s.Ample) (ht : t.status.busy = true) :
    t.Ample := by
  refine ⟨(h.tainted_of_busy ht).trans hs.tainted, ?_⟩
  rw [h.n, h.op_cfg.2]
  exact hs.fits

/-- Fewer records than samples leave room for one more. -/
theorem State.Ample.room {s : State} (h : s.Ample) (hlt : s.outCount.toNat < s.n) : s.Room := hlt.trans_le h.fits

/-- The operation has ended with OK and fewer records than samples (60 R133, R138). -/
structure State.EndedOk (s : State) : Prop where
  status : s.status = .finished .ok
  count : s.outCount.toNat ≤ s.n - 1

theorem State.Ample.endedOk {s : State} (h : s.Ample) (hcount : s.outCount.toNat ≤ s.n - 1) :
    (s.finish .ok).EndedOk := by
  rw [State.finish_of_not_tainted h.tainted]
  exact ⟨rfl, hcount⟩

/-- After a micro-step: the operation goes on with `R`, or it has ended with OK. -/
inductive GoesOk (R : State → Prop) (s : State) : Prop
  | goes (hb : s.status.busy = true) (hR : R s)
  | ends (h : s.EndedOk)

/-- A ready operation ends with OK when, from its first micro-step on, every micro-step keeps `R` or ends it so. -/
theorem exec_endsOk {i : Instr} {s : State} (R : State → Prop) (hs : s.Ready i) (hample : s.Ample)
    (hfirst : R (firstState i s))
    (hstep : ∀ u v, u.status.busy = true → u.Ample → R u → move i u = .next v → GoesOk R v) :
    ∃ t, exec i s = .next t ∧ t.EndedOk := by
  obtain ⟨t, hexec, hidle, -⟩ := everyOperationFinishes i s hs
  obtain ⟨fuel, hrun⟩ := exec_ready hs hexec
  have hbusy : (firstState i s).status.busy = true := (congrArg Status.busy (firstState_status i s)).trans hs.1.1
  have hample' := (move_moved (move_of_ready hs)).ample hample hbusy
  have hend : GoesOk (fun u => u.Ample ∧ R u) t := runMoves_keeps (fun u v hb hu hm => by
    cases hu with
    | goes _ hu =>
      obtain ⟨hu, hR⟩ := hu
      cases hstep u v hb hu hR hm with
      | goes hv hR' => exact .goes hv ⟨(move_moved hm).ample hu hv, hR'⟩
      | ends h => exact .ends h
    | ends h => rw [h.status] at hb; cases hb) fuel _ t (.goes hbusy ⟨hample', hfirst⟩) (hrun fuel le_rfl)
  cases hend with
  | goes hb => exact absurd (hb.symm.trans hidle) nofun
  | ends h => exact ⟨t, hexec, h⟩

/-! ## The decoders of one scan -/

/-- With room for one more record the step at an index does not end the operation (60 R139). -/
theorem Stepped.status_of_room {s u : State} (h : Stepped s u) (hr : s.Room) : u.status = s.status := by
  cases h with
  | quiet => rfl
  | emits a => rw [emitThen_room _ _ hr]; rfl
  | index => rw [emitIndex_room _ _ (show s.outCount.toNat < 4 * s.cfg.outCap.toNat by omega)]; rfl

/-- Where a decoder of one scan stands: with at most one record for each index it has passed, or in the post-pass. -/
inductive ScanCount (i : Instr) (s : State) : Prop
  | scan (hphase : s.phase = .scan) (hcount : s.outCount.toNat < s.w.i) (hindex : s.w.i ≤ max 1 s.n)
  | widen (hw : widens i = true) (hphase : s.phase = .widen) (hcount : s.outCount.toNat ≤ s.n - 1)

section OneScan
variable {i : Instr} {u v : State}

theorem scan_goesOk (hi : oneScan i = true) (hb : u.status.busy = true) (hu : u.Ample) (hphase : u.phase = .scan)
    (hcount : u.outCount.toNat < u.w.i) (hindex : u.w.i ≤ max 1 u.n) (hm : move i u = .next v) :
    GoesOk (ScanCount i) v := by
  have hn : v.n = u.n := (move_moved hm).n
  rw [move_of_scanning (hphase ▸ scanning_of_oneScan hi)] at hm
  obtain ⟨hlt, x, hx, rfl⟩ | ⟨hge, rfl⟩ := scanMove_next hm
  · have hstepped := scanStep_stepped hx
    have hbusy : x.advance.status.busy = true := by
      rw [State.advance_status, hstepped.status_of_room (hu.room (hcount.trans hlt)), hb]
    obtain ⟨hindex', hcount', hphase'⟩ := hstepped.advance_going hbusy
    exact .goes hbusy (.scan (hphase'.trans hphase) (by omega) (by omega))
  · obtain hend | ⟨hw, hend⟩ := scanEnd_of_oneScan hi u
    · exact hend ▸ .ends (hu.endedOk (by omega))
    · exact hend ▸ .goes hb (.widen hw rfl (show u.outCount.toNat ≤ u.n - 1 by omega))

theorem widen_goesOk (hb : u.status.busy = true) (hu : u.Ample) (hw : widens i = true) (hphase : u.phase = .widen)
    (hcount : u.outCount.toNat ≤ u.n - 1) (hm : move i u = .next v) : GoesOk (ScanCount i) v := by
  cases (move_of_widen hw hphase).symm.trans hm
  by_cases hj : u.w.j < u.outCount.toNat
  · rw [widenMove_record hj]
    exact .goes hb (.widen hw hphase hcount)
  · rw [widenMove_end (Nat.le_of_not_lt hj)]
    exact .ends (hu.endedOk hcount)

theorem exec_oneScan_endsOk {s : State} (hi : oneScan i = true) (hs : s.Ready i) (hample : s.Ample) :
    ∃ t, exec i s = .next t ∧ t.EndedOk := by
  refine exec_endsOk (ScanCount i) hs hample ?_ fun u v hb hu hR hm => ?_
  · rw [firstState_of_oneScan hi]
    exact .scan rfl Nat.one_pos (Nat.le_max_left ..)
  · cases hR with
    | scan hphase hcount hindex => exact scan_goesOk hi hb hu hphase hcount hindex hm
    | widen hw hphase hcount => exact widen_goesOk hb hu hw hphase hcount hm

end OneScan

/-! ## I2S -/

section I2s
variable {bpw : BitVec 6} {delay : BitVec 4} {order : BitOrder} {bedge : ClockEdge} {u v : State}

/-- Where I2S stands: no record before the word loop, and in it at most one for each edge of FE passed, of which there
are fewer than samples (45_i2s.md R110). -/
inductive I2sCount (s : State) : Prop
  | scan (hphase : s.phase = .scan) (hcount : s.outCount.toNat = 0) (hfe : s.w.fe.length < s.w.i)
      (hindex : s.w.i ≤ max 1 s.n)
  | bitEdges (hphase : s.phase = .bitEdges) (hcount : s.outCount.toNat = 0) (hfe : s.w.fe.length ≤ s.n - 1)
  | words (hphase : s.phase = .words) (hcount : s.outCount.toNat ≤ s.w.k) (hle : s.outCount.toNat ≤ s.w.fe.length)
      (hfe : s.w.fe.length ≤ s.n - 1)

theorem i2s_scan_goesOk (hb : u.status.busy = true) (hphase : u.phase = .scan) (hcount : u.outCount.toNat = 0)
    (hfe : u.w.fe.length < u.w.i) (hindex : u.w.i ≤ max 1 u.n)
    (hm : move (.i2s bpw delay order bedge) u = .next v) : GoesOk I2sCount v := by
  rw [move_of_scanning (by rw [hphase]; rfl)] at hm
  obtain ⟨hlt, x, hx, rfl⟩ | ⟨hge, rfl⟩ := scanMove_next hm
  · obtain ⟨l, -, hx⟩ := ok_of_bind hx
    obtain ⟨fe, hgrow, hedge⟩ := i2sFrameEdge_eq l u
    cases hedge.symm.trans (Except.ok.inj hx)
    have hlen : fe.length ≤ u.w.fe.length + 1 := by obtain rfl | rfl := hgrow <;> simp
    rw [State.advance_of_busy (s := { u with w := { u.w with fe := fe } }) hb]
    exact .goes hb (.scan hphase hcount (show fe.length < u.w.i + 1 by omega) (show u.w.i + 1 ≤ max 1 u.n by omega))
  · exact .goes hb (.bitEdges rfl hcount (show u.w.fe.length ≤ u.n - 1 by omega))

theorem i2s_bitEdges_goesOk (hb : u.status.busy = true) (hphase : u.phase = .bitEdges)
    (hcount : u.outCount.toNat = 0) (hfe : u.w.fe.length ≤ u.n - 1)
    (hm : move (.i2s bpw delay order bedge) u = .next v) : GoesOk I2sCount v := by
  rw [i2sMove_bitEdges hphase] at hm
  obtain ⟨-, x, hx, rfl⟩ | ⟨-, rfl⟩ := scanMove_next hm
  · obtain ⟨l, -, hx⟩ := ok_of_bind hx
    obtain ⟨be, -, hedge⟩ := i2sBitEdge_eq bedge l u
    cases hedge.symm.trans (Except.ok.inj hx)
    rw [State.advance_of_busy (s := { u with w := { u.w with be := be } }) hb]
    exact .goes hb (.bitEdges hphase hcount hfe)
  · exact .goes hb (.words rfl hcount.le (hcount.le.trans (Nat.zero_le _)) hfe)

theorem i2s_words_goesOk (hb : u.status.busy = true) (hu : u.Ample) (hphase : u.phase = .words)
    (hcount : u.outCount.toNat ≤ u.w.k) (hle : u.outCount.toNat ≤ u.w.fe.length) (hfe : u.w.fe.length ≤ u.n - 1)
    (hm : move (.i2s bpw delay order bedge) u = .next v) : GoesOk I2sCount v := by
  by_cases hk : u.w.k + 1 < u.w.fe.length
  · have hword := (i2sMove_half (by rw [hphase]; nofun) (by rw [hphase]; nofun) (by rw [hphase]; nofun)
      (List.getElem?_eq_getElem (Nat.lt_of_succ_lt hk)) (List.getElem?_eq_getElem hk)).1 hm
    obtain rfl | ⟨a, acc, -, -, rfl⟩ := i2sWord_cases hword
    · exact .goes hb (.words hphase (Nat.le_succ_of_le hcount) hle hfe)
    · have hr : u.Room := hu.room (by omega)
      have hone := pushRecord_count a hr
      rw [emitThen_room _ _ hr]
      exact .goes hb (.words hphase (show (u.pushRecord a).outCount.toNat ≤ u.w.k + 1 by omega)
        (show (u.pushRecord a).outCount.toNat ≤ u.w.fe.length by omega) hfe)
  · cases (i2sMove_words_end hphase (Nat.le_of_not_lt hk)).symm.trans hm
    exact .ends (hu.endedOk (hle.trans hfe))

theorem exec_i2s_endsOk {s : State} (hs : s.Ready (.i2s bpw delay order bedge)) (hample : s.Ample) :
    ∃ t, exec (.i2s bpw delay order bedge) s = .next t ∧ t.EndedOk := by
  refine exec_endsOk I2sCount hs hample (.scan rfl rfl Nat.one_pos (Nat.le_max_left ..)) fun u v hb hu hR hm => ?_
  cases hR with
  | scan hphase hcount hfe hindex => exact i2s_scan_goesOk hb hphase hcount hfe hindex hm
  | bitEdges hphase hcount hfe => exact i2s_bitEdges_goesOk hb hphase hcount hfe hm
  | words hphase hcount hle hfe => exact i2s_words_goesOk hb hu hphase hcount hle hfe hm

end I2s

/-- Settles O18: at most one record for each index of a scan, or for each edge of FE, so OUT is never full. -/
theorem clockedOperationsEndOk : Obligations.ClockedOperationsEndOk := by
  intro i s hi hs ht hcap
  have hends : ∃ t, exec i s = .next t ∧ t.EndedOk := by
    cases i with
    | edges | onewire | spi3 | spi4 | i2c | sync => exact exec_oneScan_endsOk rfl hs ⟨ht, hcap⟩
    | i2s => exact exec_i2s_endsOk hs ⟨ht, hcap⟩
    | uart => cases hi
  obtain ⟨t, hexec, hstatus, hcount⟩ := hends
  have hn : t.n = s.n := by simp only [State.n, (exec_op_cfg hexec).1]
  exact ⟨t, hexec, hstatus, hn ▸ hcount⟩

end Sys2Proof.Machine
end

section
/-! A step by the next event of the script (O5), and hardware reset (O8, O28). -/

namespace Sys2Proof.Machine

/-! ## A step by the next event -/

section Events
variable {s : State} {es : List Event}

theorem step_of_no_event (h : s.script = []) : step s = blockRun s := by
  simp only [step, stepOnce, h]

theorem step_of_host {a : HostAction} (h : s.script = .host a :: es) : step s = hostAct a { s with script := es } := by
  simp only [step, stepOnce, h]

theorem step_of_tick (h : s.script = .tick :: es) : step s = blockTick { s with script := es } := by
  simp only [step, stepOnce, h]

theorem step_of_waitDone (h : s.script = .waitDone :: es) : step s = waitStep s { s with script := es } := by
  simp only [step, stepOnce, h]

theorem blockRun_of_busy {i : Instr} (hb : s.status.busy = true) (hd : decode s.cmd = .ok i) :
    blockRun s = exec i s := by
  simp only [blockRun, hb, if_true, hd]

theorem blockTick_of_busy {i : Instr} (hb : s.status.busy = true) (hd : decode s.cmd = .ok i) :
    blockTick s = move i s := by
  simp only [blockTick, hb, if_true, hd]

theorem blockRun_of_idle (hb : s.status.busy = false) : blockRun s = .next s := by
  simp [blockRun, hb]

end Events

/-- Settles O5: the next event decides, then BUSY, DONE and the command word. -/
theorem stepRunsTheCommand : Obligations.StepRunsTheCommand := by
  refine fun s => ⟨fun i h hb hd => ?_, fun i es h hb hd => ?_, fun es h hb hdone => ?_, fun es h hb hdone => ?_,
    fun i es h hb hd => ?_, fun a es h => step_of_host h, fun h hb => ?_, fun i nbits w hd => ?_⟩
  · rw [step_of_no_event h, blockRun_of_busy hb hd]
  · rw [step_of_waitDone h, waitStep_busy _ hb]
    exact blockRun_of_busy (s := { s with script := es }) hb hd
  · rw [step_of_waitDone h, waitStep_done _ hdone]
    exact blockRun_of_idle (s := { s with script := es }) hb
  · rw [step_of_waitDone h, waitStep_idle _ hb hdone]
  · rw [step_of_tick h]
    exact blockTick_of_busy (s := { s with script := es }) hb hd
  · rw [step_of_no_event h, blockRun_of_idle hb]
  · rw [step_of_no_event (s := s.withFetchWord nbits w) rfl]
    exact blockRun_of_busy (s := s.withFetchWord nbits w) rfl hd

/-! ## Hardware reset -/

/-- After hardware reset every sample slot is empty (70_reset_and_hazards.md R151). -/
theorem chan_hwReset (s : State) (k : BitVec 2) : s.hwReset.chan k = [] := by
  unfold State.chan
  split <;> rfl

/-- Settles O8: `hwReset` gives each register its reset value and empties the memories; no operation has finished, so
no read of OUT is valid. -/
theorem hardwareResetAbandons : Obligations.HardwareResetAbandons := by
  refine fun s => ⟨s.hwReset, rfl, rfl, rfl, rfl, rfl, rfl, rfl, rfl, rfl, rfl, rfl, rfl, fun k i => ?_, fun _ => rfl,
    fun _ => rfl, fun addr acc => ?_, rfl⟩
  · rw [chan_hwReset]
    rfl
  · rw [hostAct_outRead, memAct_base]
    exact outRead_invalid (.inl rfl)

/-- Settles O28: the reset state is its own hardware reset, which meets the invariant from any state. -/
theorem resetMeetsInvariant : Obligations.ResetMeetsInvariant := hwReset_inv State.reset

end Sys2Proof.Machine
end
